-- ==== Sys2Proof/Word.lean ====
section
/-! DEFINITION. The two kinds of value the core handles: bytes, and W-bit times (spec R7, R9, R10, R54). -/

namespace Sys2Proof

/-- One byte of the heartbeat stream: bits 7 (most significant) down to 0, unsigned (R9). -/
abbrev Byte := BitVec 8

/-- A clock sample, timestamp or duration. Its width `W` is an OPEN parameter of the spec (R7, D1), held in
`Config.clockWidth`, so a time is a natural number and every rule that computes one reduces it modulo `2 ^ W`
(R10). No rule shifts or masks a time. The legal values of a W-bit register are those below `2 ^ W`
(`Sys2Proof.Machine.TimesInRange`); log entry 1. -/
abbrev Time := Nat

end Sys2Proof
end

