-- ==== Sys2Proof/Config.lean ====
section
/-! DEFINITION. The implementation parameters of spec/00_scope.md R7: the values the source fixes, as constants, and the
configuration inputs of R36, as one record of plain data that `State` holds and no step of the core writes (R8). -/

namespace Sys2Proof

/-- An identity: one of the two nodes (R3). As `CFG_OWN`, A is 0 and B is 1 (R36). -/
inductive Ident where
  | a
  | b
  deriving DecidableEq, Repr

/-- `SYNC1`, fixed (R7). -/
def SYNC1 : Byte := 0xAA
/-- `SYNC2`, fixed (R7). -/
def SYNC2 : Byte := 0x55
/-- `POLY`, fixed (R7): the CRC-8 generator polynomial with `x^8` implicit. -/
def POLY : Byte := 0x07
/-- `CRC_INIT`, fixed (R7). -/
def CRC_INIT : Byte := 0x00
/-- `CRC_XOROUT` (R7, decision D4 of the spec). -/
def CRC_XOROUT : Byte := 0x00
/-- `FRAME_LEN`, fixed (R7): bytes per frame. -/
def FRAME_LEN : Nat := 5
/-- `PRIMARY`, fixed (R7): the identity configured as primary. -/
def PRIMARY : Ident := .a

/-- The configuration inputs (R36) with the two parameters of R7 that are not `CFG_` ports, `W` and `RX_DEPTH`.
Every value is a parameter: statements about every `State` hold for every configuration. -/
structure Config where
  /-- `W`: the width in bits of the clock, of every timestamp and of every duration. -/
  clockWidth : Nat
  /-- `CFG_OWN`: this node's identity. -/
  own : Ident
  /-- `ID_A`: the byte identity A sends in `senderId`. -/
  idA : Byte
  /-- `ID_B`: the byte identity B sends in `senderId`. -/
  idB : Byte
  /-- `CFG_HB_PERIOD`: outbound heartbeat period, ms. -/
  hbPeriod : Time
  /-- `CFG_PEER_TIMEOUT`: peer timeout, ms. -/
  peerTimeout : Time
  /-- `CFG_SETTLE`: the delay of the TakingOver state, ms. -/
  settle : Time
  /-- `CFG_HOLD`: takeover hold duration, ms; it has no effect (R131). -/
  hold : Time
  /-- `CFG_BBM`: the arbitrator's break-before-make hold, ms. -/
  bbm : Time
  /-- `CFG_BOOT_GRACE`: whether a secondary that has never received a frame waits one peer timeout from boot. -/
  bootGrace : Bool
  /-- `RX_DEPTH`: capacity in bytes of the external receive buffer; `none` is unbounded. -/
  rxDepth : Option Nat
  deriving DecidableEq, Repr

/-- Every W-bit configuration input is a W-bit pattern (R7, R36, R52): what `configure` sets, and part of the invariant. -/
abbrev Config.InRange (c : Config) : Prop :=
  c.hbPeriod < 2 ^ c.clockWidth ∧ c.peerTimeout < 2 ^ c.clockWidth ∧ c.settle < 2 ^ c.clockWidth ∧
    c.hold < 2 ^ c.clockWidth ∧ c.bbm < 2 ^ c.clockWidth

/-- The preconditions of R159 that one node's configuration can show: `ID_A != ID_B` (item 2) and
`CFG_SETTLE < CFG_BBM` (item 3), with every width respected. The core checks none of them. -/
abbrev Config.Legal (c : Config) : Prop :=
  c.InRange ∧ 0 < c.clockWidth ∧ c.idA ≠ c.idB ∧ c.settle < c.bbm

/-- The configuration `State.reset` carries. The suggested values of R7 (D1, D2, D3, D20, D26) where it suggests one;
for `CFG_SETTLE`, `CFG_HOLD` and `CFG_BBM`, which have no suggested value, the example values of
spec/95_test_vectors.md; `CFG_OWN` is A. DESIGN CHOICE (log entry 2): no statement rests on these values. -/
def Config.suggested : Config where
  clockWidth := 32
  own := .a
  idA := 0x41
  idB := 0x42
  hbPeriod := 500
  peerTimeout := 2000
  settle := 20
  hold := 0
  bbm := 50
  bootGrace := true
  rxDepth := none

end Sys2Proof
end

