-- ==== Sys2Proof/Syntax.lean ====
section
/-! DEFINITION. The operations of the core: one constructor of `Instr` for each of the 36 rows of
spec/opcode_table.json, with the operands the row's rule gives it. -/

namespace Sys2Proof

/-- An owner value (R72): the operand of a claim. Its 2-bit code is `Machine.Owner.code`. -/
inductive Owner where
  | none
  | a
  | b
  deriving DecidableEq, Repr

/-- The eleven rows of the parser decode word, in the table's order (R69). -/
inductive Row where
  | ws1Sync1
  | ws1Other
  | ws2Sync2
  | ws2Resync
  | ws2Other
  | capId
  | capSeq
  | capCrcOk
  | capCrcBad
  | pstateRsv5
  | pstateRsv67
  deriving DecidableEq, Repr

/-- The operations of the core (R76) and the rows the parser decodes (R69). Operands that a rule reads from a register
(`SEQ_T`, `OWN_BYTE`, `ARB_TARGET`, …) are not operands here: the meaning reads the register. -/
inductive Instr where
  /-- `HB_FRAME` (R63, R84): the five bytes `AA 55 id seq crc`. -/
  | hbFrame (id seq crc : Byte)
  /-- `WS1_SYNC1` (R88): byte 0xAA in WaitSync1. -/
  | ws1Sync1
  /-- `WS1_OTHER` (R89): a byte other than 0xAA in WaitSync1. -/
  | ws1Other (b : Byte)
  /-- `WS2_SYNC2` (R90): byte 0x55 in WaitSync2. -/
  | ws2Sync2
  /-- `WS2_RESYNC` (R91): byte 0xAA in WaitSync2. -/
  | ws2Resync
  /-- `WS2_OTHER` (R92): a byte other than 0x55 and 0xAA in WaitSync2. -/
  | ws2Other (b : Byte)
  /-- `CAP_ID` (R93). -/
  | capId (b : Byte)
  /-- `CAP_SEQ` (R94). -/
  | capSeq (b : Byte)
  /-- `CAP_CRC_OK` (R95). -/
  | capCrcOk (b : Byte)
  /-- `CAP_CRC_BAD` (R96). -/
  | capCrcBad (b : Byte)
  /-- `PSTATE_RSV5` (R74): parser state code 5. -/
  | pstateRsv5 (b : Byte)
  /-- `PSTATE_RSV67` (R74): parser state code 6 or 7; `low` is `PW[8]`, the code's lowest bit. -/
  | pstateRsv67 (low : BitVec 1) (b : Byte)
  /-- `CRC8` (R78): the checksum of a list of bytes. -/
  | crc8 (bs : List Byte)
  /-- `ENCODE` (R86): lay out one frame. -/
  | encode (id seq : Byte)
  /-- `CONSUME_BYTE` (R87): pass one byte to the parser, at the tick sample `SEQ_T`. -/
  | consumeByte (b : Byte)
  /-- `SEND` (R101): emit one heartbeat frame, at the tick sample `SEQ_T`. -/
  | send
  /-- `SEND_DUE` (R100): the send condition at the tick sample `SEQ_T`. -/
  | sendDue
  /-- `IS_PEER_ALIVE` (R102). -/
  | isPeerAlive (now timeout : Time)
  /-- `INITIALIZE` (R106). -/
  | arbInitialize
  /-- `CLAIM_NOOP` (R107). -/
  | claimNoop (new : Owner)
  /-- `CLAIM_BEGIN` (R108). -/
  | claimBegin (new : Owner)
  /-- `CLAIM_HOLD` (R109). -/
  | claimHold
  /-- `CLAIM_FINISH` (R110). -/
  | claimFinish
  /-- `CLAIM_TO_NONE` (R111). -/
  | claimToNone
  /-- `CLAIM_RETURN` (R122). -/
  | claimReturn
  /-- `BOOT` (R121). -/
  | boot
  /-- `TICK_START` (R123). -/
  | tickStart
  /-- `DRAIN` (R124). -/
  | drain
  /-- `SEND_PHASE` (R125). -/
  | sendPhase
  /-- `EVAL` (R126). -/
  | eval
  /-- `EVAL_PRIMARY` (R127). -/
  | evalPrimary
  /-- `EVAL_STANDBY` (R129). -/
  | evalStandby
  /-- `EVAL_TAKINGOVER` (R130). -/
  | evalTakingover
  /-- `EVAL_ACTIVE_AFTER_TAKEOVER` (R131). -/
  | evalActiveAfterTakeover
  /-- `FAILOVER_ACK` (R136): a step of the host. -/
  | failoverAck
  /-- `RESET` (R155): a step of the host. -/
  | reset
  deriving DecidableEq, Repr

end Sys2Proof
end

