-- ==== Sys2Proof/WellFormed.lean ====
section
/-! DEFINITION. What a well-formed operation is: the operand conditions the opcode table and the rules give a row, apart
from those about the state the row runs in. -/

namespace Sys2Proof

/-- The operand conditions of the table's rows, under a configuration (for the width of a time).
* `HB_FRAME`: the checksum byte is that of the payload (the row's condition, R84).
* `WS1_OTHER`: the byte is not 0xAA (R89). `WS2_OTHER`: the byte is neither 0x55 nor 0xAA (R92).
* `IS_PEER_ALIVE`: both operands are W bits wide (R102).
Every other row admits every operand. -/
def Instr.wellFormed (c : Config) : Instr → Bool
  | .hbFrame id seq crc => crc == Machine.crc8 [id, seq]
  | .ws1Other b => b != SYNC1
  | .ws2Other b => b != SYNC2 && b != SYNC1
  | .isPeerAlive now timeout => decide (now < 2 ^ c.clockWidth) && decide (timeout < 2 ^ c.clockWidth)
  | .ws1Sync1 | .ws2Sync2 | .ws2Resync | .capId _ | .capSeq _ | .capCrcOk _ | .capCrcBad _ => true
  | .pstateRsv5 _ | .pstateRsv67 _ _ | .crc8 _ | .encode _ _ | .consumeByte _ | .send | .sendDue => true
  | .arbInitialize | .claimNoop _ | .claimBegin _ | .claimHold | .claimFinish | .claimToNone | .claimReturn => true
  | .boot | .tickStart | .drain | .sendPhase | .eval | .evalPrimary | .evalStandby | .evalTakingover => true
  | .evalActiveAfterTakeover | .failoverAck | .reset => true

/-- Well-formed against the two capture registers: rows 8 and 9 of the parser word also ask whether the byte is the
checksum of the captured payload (R69, R95, R96). -/
def Instr.wellFormedAt (c : Config) (capId capSeq : Byte) (i : Instr) : Bool :=
  i.wellFormed c &&
    match i with
    | .capCrcOk b => b == Machine.crc8 [capId, capSeq]
    | .capCrcBad b => b != Machine.crc8 [capId, capSeq]
    | _ => true

end Sys2Proof
end

