-- ==== Sys2Proof/Decode.lean ====
section
/-! DEFINITION. Decoding (spec/30_encoding.md): the parser decode word of R69, which selects a row for every word; the
40-bit frame of R63 and R84, refused by name when it is not a valid frame; then the encoder. The other operations have no
encoding (R76). -/

namespace Sys2Proof

/-- Assembles the parser decode word `PW = LNK_PSTATE[2:0] ++ b[7:0]` (R69). -/
def parserWord (pstate : BitVec 3) (b : Byte) : BitVec 11 :=
  pstate ++ b

/-- `PW[10:8]`, the parser state code (R69). -/
def wordState (pw : BitVec 11) : BitVec 3 :=
  pw.extractLsb' 8 3

/-- `PW[7:0]`, the byte (R69). -/
def wordByte (pw : BitVec 11) : Byte :=
  pw.extractLsb' 0 8

/-- One line of the table of R69. -/
structure RowPattern where
  row : Row
  pattern : BitVec 11
  mask : BitVec 11
  deriving DecidableEq, Repr

/-- The table of R69, in its order: mnemonic, match, mask. -/
def parserTable : List RowPattern := [
  ⟨.ws1Sync1, 0x0AA, 0x7FF⟩,
  ⟨.ws1Other, 0x000, 0x700⟩,
  ⟨.ws2Sync2, 0x155, 0x7FF⟩,
  ⟨.ws2Resync, 0x1AA, 0x7FF⟩,
  ⟨.ws2Other, 0x100, 0x700⟩,
  ⟨.capId, 0x200, 0x700⟩,
  ⟨.capSeq, 0x300, 0x700⟩,
  ⟨.capCrcOk, 0x400, 0x700⟩,
  ⟨.capCrcBad, 0x400, 0x700⟩,
  ⟨.pstateRsv5, 0x500, 0x700⟩,
  ⟨.pstateRsv67, 0x600, 0x600⟩]

/-- The condition column of R69. `crcMatches` says whether the byte is `Crc8([LNK_CAP_ID, LNK_CAP_SEQ])`. -/
def rowCondition (crcMatches : Bool) (b : Byte) : Row → Bool
  | .ws1Other => b != 0xAA
  | .ws2Other => b != 0x55 && b != 0xAA
  | .capCrcOk => crcMatches
  | .capCrcBad => !crcMatches
  | .ws1Sync1 | .ws2Sync2 | .ws2Resync | .capId | .capSeq | .pstateRsv5 | .pstateRsv67 => true

/-- Whether a line of the table matches a word and its condition holds (R69). -/
def RowPattern.selects (crcMatches : Bool) (pw : BitVec 11) (p : RowPattern) : Bool :=
  pw &&& p.mask == p.pattern && rowCondition crcMatches (wordByte pw) p.row

/-- The row a parser word selects: the case analysis of R87, by the state code and then the byte. That it is the first
matching line of `parserTable`, and the only one, is a statement of its own. -/
def decodeRow (crcMatches : Bool) (pw : BitVec 11) : Row :=
  let b := wordByte pw
  match (wordState pw).toNat with
  | 0 => if b = SYNC1 then .ws1Sync1 else .ws1Other
  | 1 => if b = SYNC2 then .ws2Sync2 else if b = SYNC1 then .ws2Resync else .ws2Other
  | 2 => .capId
  | 3 => .capSeq
  | 4 => if crcMatches then .capCrcOk else .capCrcBad
  | 5 => .pstateRsv5
  | _ => .pstateRsv67

/-- The operation a row stands for, with its operands read from the word. -/
def Row.instr (pw : BitVec 11) : Row → Instr
  | .ws1Sync1 => .ws1Sync1
  | .ws1Other => .ws1Other (wordByte pw)
  | .ws2Sync2 => .ws2Sync2
  | .ws2Resync => .ws2Resync
  | .ws2Other => .ws2Other (wordByte pw)
  | .capId => .capId (wordByte pw)
  | .capSeq => .capSeq (wordByte pw)
  | .capCrcOk => .capCrcOk (wordByte pw)
  | .capCrcBad => .capCrcBad (wordByte pw)
  | .pstateRsv5 => .pstateRsv5 (wordByte pw)
  | .pstateRsv67 => .pstateRsv67 (pw.extractLsb' 8 1) (wordByte pw)

/-- Decodes a parser word against the captured payload (R69). Total: every word selects a row. -/
def decodeParserWord (capId capSeq : Byte) (pw : BitVec 11) : Instr :=
  (decodeRow (wordByte pw == Machine.crc8 [capId, capSeq]) pw).instr pw

/-- Why a sequence of bytes is not a valid frame (R84). The core reports none of these (R97): they are the decoder's. -/
inductive FrameReject where
  /-- not exactly five bytes (R65) -/
  | length
  /-- byte 0 is not 0xAA -/
  | syncA
  /-- byte 1 is not 0x55 -/
  | syncB
  /-- byte 4 is not the checksum of bytes 2 and 3 -/
  | checksum
  deriving DecidableEq, Repr

/-- Decodes five bytes as a frame (R63, R64, R84), or says why they are none. -/
def decodeFrame (f : List Byte) : Except FrameReject Instr :=
  match f with
  | [syncA, syncB, id, seq, crc] =>
    if syncA ≠ SYNC1 then .error .syncA
    else if syncB ≠ SYNC2 then .error .syncB
    else if crc ≠ Machine.crc8 [id, seq] then .error .checksum
    else .ok (.hbFrame id seq crc)
  | _ => .error .length

/-- The two encodings of spec/30_encoding.md: a parser decode word (section 2) and a frame (section 1). -/
inductive Encoding where
  | word (pw : BitVec 11)
  | frame (bytes : List Byte)
  deriving DecidableEq, Repr

/-- The encoding of an operation, from the tables of R63 and R69; `none` for the operations R76 gives none. -/
def encode : Instr → Option Encoding
  | .hbFrame id seq crc => some (.frame [SYNC1, SYNC2, id, seq, crc])
  | .ws1Sync1 => some (.word 0x0AA)
  | .ws1Other b => some (.word (parserWord 0 b))
  | .ws2Sync2 => some (.word 0x155)
  | .ws2Resync => some (.word 0x1AA)
  | .ws2Other b => some (.word (parserWord 1 b))
  | .capId b => some (.word (parserWord 2 b))
  | .capSeq b => some (.word (parserWord 3 b))
  | .capCrcOk b => some (.word (parserWord 4 b))
  | .capCrcBad b => some (.word (parserWord 4 b))
  | .pstateRsv5 b => some (.word (parserWord 5 b))
  | .pstateRsv67 low b => some (.word (parserWord (0b11#2 ++ low) b))
  | .crc8 _ | .encode _ _ | .consumeByte _ | .send | .sendDue | .isPeerAlive _ _ => none
  | .arbInitialize | .claimNoop _ | .claimBegin _ | .claimHold | .claimFinish | .claimToNone | .claimReturn => none
  | .boot | .tickStart | .drain | .sendPhase | .eval | .evalPrimary | .evalStandby | .evalTakingover => none
  | .evalActiveAfterTakeover | .failoverAck | .reset => none

/-- Decodes either encoding, against a captured payload. -/
def decode (capId capSeq : Byte) : Encoding → Except FrameReject Instr
  | .word pw => .ok (decodeParserWord capId capSeq pw)
  | .frame f => decodeFrame f

/-- The five bytes of a 40-bit frame word, as the opcode table numbers it: bit 39 is bit 7 of byte 0, the first byte on
the stream. -/
def frameBytes (w : Nat) : List Byte :=
  [BitVec.ofNat 8 (w / 2 ^ 32), BitVec.ofNat 8 (w / 2 ^ 24), BitVec.ofNat 8 (w / 2 ^ 16), BitVec.ofNat 8 (w / 2 ^ 8),
    BitVec.ofNat 8 w]

/-- What the decoder reads from a row's bits. An 11-bit parser word (two bytes, the five bits above it 0) is decoded
against the reset values of the capture registers, 0x00 each (log entry 8); a 40-bit word as a frame. Nothing else is an
encoding. -/
def decodeTableWord (nbits w : Nat) : Option Instr :=
  if nbits = 11 ∨ nbits = 16 then
    if w < 2 ^ 11 then some (decodeParserWord 0x00 0x00 (BitVec.ofNat 11 w)) else none
  else if nbits = 40 then
    if w < 2 ^ 40 then (decodeFrame (frameBytes w)).toOption else none
  else none

end Sys2Proof
end

