-- ==== Sys2Proof/Machine/State.lean ====
section
/-! DEFINITION. The state of one core, as plain data: the four register groups of spec/10_state.md R14, the configuration
inputs (R36), the ports and external queues (R38), and two fields of the model's own. -/

namespace Sys2Proof.Machine

/-- A role of the controller (R29, R71). All four 2-bit codes are roles (R126), so no code is reserved. -/
inductive Role where
  | primaryActive
  | standbyPassive
  | takingOver
  | activeAfterTakeover
  deriving DecidableEq, Repr

/-- `SEQ_RET` (R35): what follows the claim in progress; RET_BOOT is 0 and RET_TAKEOVER is 1. -/
inductive SeqRet where
  | boot
  | takeover
  deriving DecidableEq, Repr

/-- The link registers (R17 to R23). `pstate` keeps its code, because reserved codes exist (R70, R74). -/
structure Link where
  /-- `LNK_PSTATE` -/
  pstate : BitVec 3
  /-- `LNK_CAP_ID` -/
  capId : Byte
  /-- `LNK_CAP_SEQ` -/
  capSeq : Byte
  /-- `LNK_PEER_KNOWN` -/
  peerKnown : Bool
  /-- `LNK_PEER_ID` -/
  peerId : Byte
  /-- `LNK_LAST_RX` -/
  lastRx : Time
  /-- `LNK_TX_SEQ` -/
  txSeq : Byte
  /-- `LNK_LAST_TX` -/
  lastTx : Time
  deriving DecidableEq, Repr

/-- The arbitrator registers and the two lines (R24 to R28). `owner` and `target` keep their codes (R72, R74). -/
structure Arb where
  /-- `ARB_OWNER` -/
  owner : BitVec 2
  /-- `LINE_A` -/
  lineA : Bool
  /-- `LINE_B` -/
  lineB : Bool
  /-- `ARB_BUSY` -/
  busy : Bool
  /-- `ARB_TARGET` -/
  target : BitVec 2
  /-- `ARB_BREAK_START` -/
  breakStart : Time
  deriving DecidableEq, Repr

/-- The controller registers (R29 to R32). -/
structure Ctl where
  /-- `CTL_ROLE` -/
  role : Role
  /-- `CTL_TAKEOVER_START` -/
  takeoverStart : Time
  /-- `CTL_BOOT_TIME` -/
  bootTime : Time
  /-- `CTL_FAILOVER_FLAG` -/
  failoverFlag : Bool
  deriving DecidableEq, Repr

/-- The sequencer registers (R33 to R35). `phase` keeps its code (R73, R74). -/
structure Seq where
  /-- `PHASE` -/
  phase : BitVec 3
  /-- `SEQ_T` -/
  t : Time
  /-- `SEQ_RET` -/
  ret : SeqRet
  deriving DecidableEq, Repr

/-- The ports and the queues outside the core (R38). -/
structure Env where
  /-- `CLK_MS`: the clock's present value -/
  clkMs : Time
  /-- `RESET` -/
  resetPin : Bool
  /-- the receive queue, oldest byte first (R46) -/
  rxQueue : List Byte
  /-- the transmit queue, oldest byte first (R49) -/
  txQueue : List Byte
  /-- bytes that have left the transmit queue, in order: the model's own, so that the bytes pushed so far (R152) are
  `txWire ++ txQueue` (log entry 11) -/
  txWire : List Byte
  deriving DecidableEq, Repr

/-- What the world around the core may do between its steps (R58, R148), and the core's own turn. One step of the model
takes the first move of `State.moves`; every interleaving is some list of moves (log entry 3). -/
inductive Move where
  /-- the core takes its step -/
  | core
  /-- `CLK_MS` advances by `d`, modulo `2 ^ W` (R55) -/
  | clock (d : Time)
  /-- one byte arrives at the receive queue (R47) -/
  | receive (b : Byte)
  /-- the oldest byte of the transmit queue leaves for the wire (R49, R58) -/
  | transmit
  /-- the host raises `FAILOVER_ACK` (R136) -/
  | ack
  /-- the host asserts `RESET` (R155, R156) -/
  | assertReset
  /-- the host releases `RESET` (R157) -/
  | releaseReset
  /-- the integrator sets the configuration, while `RESET` is asserted (R159) -/
  | configure (c : Config)
  deriving DecidableEq, Repr

/-- What CRC8, ENCODE, SEND_DUE or IS_PEER_ALIVE returns to whoever runs it as an operation of its own (log entry 6). -/
inductive OpResult where
  | nothing
  | byte (b : Byte)
  | frame (bytes : List Byte)
  | truth (v : Bool)
  deriving DecidableEq, Repr

/-- The whole machine: every register of R14, the configuration, the ports, and the model's own `moves` and `result`. -/
structure State where
  cfg : Config
  link : Link
  arb : Arb
  ctl : Ctl
  seq : Seq
  env : Env
  moves : List Move
  result : OpResult
  deriving DecidableEq, Repr

/-- Why a step stops the model. The core raises no exception (R137); these are the faults R74, D30 and U10 ask a model to
raise when a register holds a reserved code. All are safe: no rule writes such a code, so no run reaches one. -/
inductive Fault where
  /-- `LNK_PSTATE` holds 5, 6 or 7: raised by PSTATE_RSV5, PSTATE_RSV67 and the sequencer. Safe. -/
  | reservedParserState (code : BitVec 3)
  /-- `ARB_OWNER` holds 3: raised by a claim that reads it and by the sequencer. Safe. -/
  | reservedOwner (code : BitVec 2)
  /-- `ARB_TARGET` holds 3: raised by CLAIM_FINISH and the sequencer. Safe. -/
  | reservedTarget (code : BitVec 2)
  /-- `PHASE` holds 6 or 7: raised by the sequencer. Safe. -/
  | reservedPhase (code : BitVec 3)
  deriving DecidableEq, Repr

/-- Why the model declines a step. -/
inductive Refusal where
  /-- An instruction without a meaning in this model; raised by no arm of `exec`. Safe. -/
  | notModelled (mnemonic : String)
  /-- The move `configure` while `RESET` is released: the environment has no such move (R8, R148, U15). Raised by the
  step on that move only, never by an operation. Safe. -/
  | configurationWhileRunning
  deriving DecidableEq, Repr

/-- The three outcomes of a step of this machine. -/
abbrev StepOutcome := Host.Outcome State Fault Refusal

/-- The machine right after reset: every register at the value of R42, `RESET` released (R157). `LNK_LAST_TX` and
`CTL_BOOT_TIME` are 0 until BOOT writes them (log entry 10); the configuration is `Config.suggested` (log entry 2); the
clock is 0, the queues and the moves are empty (log entry 11). -/
def State.reset : State where
  cfg := Config.suggested
  link := { pstate := 0, capId := 0x00, capSeq := 0x00, peerKnown := false, peerId := 0x00, lastRx := 0, txSeq := 0x00,
            lastTx := 0 }
  arb := { owner := 0, lineA := false, lineB := false, busy := false, target := 0, breakStart := 0 }
  ctl := { role := .primaryActive, takeoverStart := 0, bootTime := 0, failoverFlag := false }
  seq := { phase := 0, t := 0, ret := .boot }
  env := { clkMs := 0, resetPin := false, rxQueue := [], txQueue := [], txWire := [] }
  moves := []
  result := .nothing

end Sys2Proof.Machine
end

