-- ==== Sys2Proof/Machine/Operands.lean ====
section
/-! DEFINITION. Operand forms: the codes of the state registers (spec/30_encoding.md section 3) and the values a rule reads
from the configuration and the registers (R37, R69). -/

namespace Sys2Proof

/-- The code of an owner (R72). -/
def Owner.code : Owner → BitVec 2
  | .none => 0
  | .a => 1
  | .b => 2

/-- The owner of a code; `none` for the reserved code 3 (R72). -/
def Owner.ofCode (c : BitVec 2) : Option Owner :=
  match c.toNat with
  | 0 => some .none
  | 1 => some .a
  | 2 => some .b
  | _ => Option.none

/-- The code of `CFG_OWN` (R36). -/
def Ident.code : Ident → BitVec 1
  | .a => 0
  | .b => 1

/-- The owner value of an identity (R72). -/
def Ident.owner : Ident → Owner
  | .a => .a
  | .b => .b

/-- `OWN_BYTE` (R37): the byte this node sends in `senderId`. -/
def Config.ownByte (c : Config) : Byte :=
  match c.own with
  | .a => c.idA
  | .b => c.idB

/-- `SELF` (R37): `CFG_OWN` as an owner value. -/
def Config.self (c : Config) : Owner :=
  c.own.owner

/-- The configuration the ports carry: each of the five durations is a W-bit input, so only its low W bits arrive (R7, R36,
R52; log entry 21). -/
def Config.narrow (c : Config) : Config :=
  { c with
    hbPeriod := c.hbPeriod % 2 ^ c.clockWidth
    peerTimeout := c.peerTimeout % 2 ^ c.clockWidth
    settle := c.settle % 2 ^ c.clockWidth
    hold := c.hold % 2 ^ c.clockWidth
    bbm := c.bbm % 2 ^ c.clockWidth }

/-- The role configuration gives at boot and reset (R29, R120): PrimaryActive exactly if `CFG_OWN` is `PRIMARY`. -/
def Config.initialRole (c : Config) : Machine.Role :=
  if c.own = PRIMARY then .primaryActive else .standbyPassive

end Sys2Proof

namespace Sys2Proof.Machine

/-- The parser states (R70). -/
inductive PState where
  | waitSync1
  | waitSync2
  | captureId
  | captureSeq
  | captureCrc
  deriving DecidableEq, Repr

/-- The code of a parser state (R70). -/
def PState.code : PState → BitVec 3
  | .waitSync1 => 0
  | .waitSync2 => 1
  | .captureId => 2
  | .captureSeq => 3
  | .captureCrc => 4

/-- The parser state of a code; `none` for the reserved codes 5 to 7 (R70). -/
def PState.ofCode (c : BitVec 3) : Option PState :=
  match c.toNat with
  | 0 => some .waitSync1
  | 1 => some .waitSync2
  | 2 => some .captureId
  | 3 => some .captureSeq
  | 4 => some .captureCrc
  | _ => none

/-- The code of a role (R71). -/
def Role.code : Role → BitVec 2
  | .primaryActive => 0
  | .standbyPassive => 1
  | .takingOver => 2
  | .activeAfterTakeover => 3

/-- The values of `PHASE` (R33). -/
inductive Phase where
  | boot
  | tickStart
  | drain
  | send
  | eval
  | claimHold
  deriving DecidableEq, Repr

/-- The code of a phase (R73). -/
def Phase.code : Phase → BitVec 3
  | .boot => 0
  | .tickStart => 1
  | .drain => 2
  | .send => 3
  | .eval => 4
  | .claimHold => 5

/-- The phase of a code; `none` for the reserved codes 6 and 7 (R73). -/
def Phase.ofCode (c : BitVec 3) : Option Phase :=
  match c.toNat with
  | 0 => some .boot
  | 1 => some .tickStart
  | 2 => some .drain
  | 3 => some .send
  | 4 => some .eval
  | 5 => some .claimHold
  | _ => none

/-- The code of `SEQ_RET` (R35). -/
def SeqRet.code : SeqRet → BitVec 1
  | .boot => 0
  | .takeover => 1

/-- `Crc8([LNK_CAP_ID, LNK_CAP_SEQ])`: the checksum CaptureCrc compares with (R95, R96). -/
def State.capturedCrc (s : State) : Byte :=
  crc8 [s.link.capId, s.link.capSeq]

/-- The row a byte selects in this state: the decode word of R69 with the captured payload. -/
def State.rowOf (s : State) (b : Byte) : Row :=
  decodeRow (b == s.capturedCrc) (parserWord s.link.pstate b)

/-- The bytes pushed so far, in order (R152). -/
def State.pushed (s : State) : List Byte :=
  s.env.txWire ++ s.env.txQueue

end Sys2Proof.Machine
end

