-- ==== Sys2Proof/Machine/Ops.lean ====
section
/-! DEFINITION. The named operations every rule is written with: the pseudocode primitives of spec/00_scope.md R10 and R11
over the clock, the two queues, the lines and `PHASE`. The core has no memory and takes no exception (R43, R137), so there
is no memory operation and no exception entry here. -/

namespace Sys2Proof.Machine

/-- Goes on with `f` from the next state of `o`; a fault or a refusal stays. -/
def andThen (o : StepOutcome) (f : State → StepOutcome) : StepOutcome :=
  match o with
  | .next s => f s
  | .fault r => .fault r
  | .refused r => .refused r

/-- `elapsed(t_now, t_then) = (t_now - t_then) mod 2^W` (R10), for W = `w`. -/
def elapsed (w : Nat) (tNow tThen : Time) : Time :=
  (tNow + (2 ^ w - tThen % 2 ^ w)) % 2 ^ w

/-- `Now()` (R11, R55): one sample of the clock input, a W-bit value. Every `Now()` of one step is this one (R117). -/
def State.now (s : State) : Time :=
  s.env.clkMs % 2 ^ s.cfg.clockWidth

/-- `elapsed(t, start)` at the width of this core's clock. -/
def State.since (s : State) (t start : Time) : Time :=
  elapsed s.cfg.clockWidth t start

/-- `PHASE <- p` (R11, R33). -/
def State.setPhase (s : State) (p : Phase) : State :=
  { s with seq.phase := p.code }

/-- `LNK_PSTATE <- p` (R17). -/
def State.setPState (s : State) (p : PState) : State :=
  { s with link.pstate := p.code }

/-- `SetLine(which, e)` (R11, R25): `which` is the owner whose line it is; None has no line. -/
def State.setLine (s : State) (which : Owner) (e : Bool) : State :=
  match which with
  | .none => s
  | .a => { s with arb.lineA := e }
  | .b => { s with arb.lineB := e }

/-- `RxEmpty()` (R11). -/
def State.rxEmpty (s : State) : Bool :=
  s.env.rxQueue.isEmpty

/-- `RxPop()` (R11, R46): the oldest byte of the receive queue and the state without it; `none` when it is empty. -/
def State.rxPop (s : State) : Option (Byte × State) :=
  match s.env.rxQueue with
  | [] => none
  | b :: rest => some (b, { s with env.rxQueue := rest })

/-- `TxPush(bytes)` (R11, R49): the transport accepts every byte. -/
def State.txPush (s : State) (bytes : List Byte) : State :=
  { s with env.txQueue := s.env.txQueue ++ bytes }

/-- Returns a value to whoever runs an operation that writes no register (log entry 6). -/
def State.setResult (s : State) (r : OpResult) : State :=
  { s with result := r }

/-- Adds one arriving byte to the receive queue, unless it already holds `RX_DEPTH` bytes: then the arriving byte is lost
(R47). -/
def State.rxArrive (s : State) (b : Byte) : State :=
  match s.cfg.rxDepth with
  | none => { s with env.rxQueue := s.env.rxQueue ++ [b] }
  | some depth => if s.env.rxQueue.length < depth then { s with env.rxQueue := s.env.rxQueue ++ [b] } else s

/-- The receive queue holds at most `RX_DEPTH` bytes (R47). -/
def State.rxFits (s : State) : Bool :=
  s.cfg.rxDepth.all fun depth => decide (s.env.rxQueue.length ≤ depth)

/-- The receive queue cut to `RX_DEPTH` bytes (R47). Which bytes stay is open in the spec: the model keeps the oldest. DESIGN
CHOICE (log entry 22). -/
def State.rxTrim (s : State) : State :=
  match s.cfg.rxDepth with
  | none => s
  | some depth => { s with env.rxQueue := s.env.rxQueue.take depth }

/-- The oldest byte of the transmit queue leaves for the wire (R49, R58). -/
def State.txLeave (s : State) : State :=
  match s.env.txQueue with
  | [] => s
  | b :: rest => { s with env.txQueue := rest, env.txWire := s.env.txWire ++ [b] }

/-- `CLK_MS` advances by `d`, modulo `2 ^ W` (R55). -/
def State.clockAdvance (s : State) (d : Time) : State :=
  { s with env.clkMs := (s.env.clkMs + d) % 2 ^ s.cfg.clockWidth }

/-- Every register at its reset value (R42, R155); `LNK_LAST_TX` and `CTL_BOOT_TIME`, which BOOT writes, at 0 (log entry
10). The configuration, the ports, the external queues and the model's own fields stay. -/
def State.resetRegisters (s : State) : State :=
  { s with
    link := { pstate := PState.waitSync1.code, capId := 0x00, capSeq := 0x00, peerKnown := false, peerId := 0x00,
              lastRx := 0, txSeq := 0x00, lastTx := 0 }
    arb := { owner := Owner.none.code, lineA := false, lineB := false, busy := false, target := Owner.none.code,
             breakStart := 0 }
    ctl := { role := s.cfg.initialRole, takeoverStart := 0, bootTime := 0, failoverFlag := false }
    seq := { phase := Phase.boot.code, t := 0, ret := .boot } }

end Sys2Proof.Machine
end

