-- ==== Sys2Proof/Machine/Flags.lean ====
section
/-! DEFINITION. Every one-bit value of the core: the three status flags (R40), the conditions the rules compute (R100, R102,
R109, R128, R130), and the status outputs with their packed word (R39, R75). -/

namespace Sys2Proof.Machine

/-- `LNK_PEER_KNOWN <- v` (R19). -/
def State.setPeerKnown (s : State) (v : Bool) : State :=
  { s with link.peerKnown := v }

/-- `ARB_BUSY <- v` (R26). -/
def State.setBusy (s : State) (v : Bool) : State :=
  { s with arb.busy := v }

/-- `CTL_FAILOVER_FLAG <- v` (R32). -/
def State.setFailoverFlag (s : State) (v : Bool) : State :=
  { s with ctl.failoverFlag := v }

/-- `SendDue(t)` (R100). -/
def State.sendDue (s : State) (t : Time) : Bool :=
  decide (s.cfg.hbPeriod ≤ s.since t s.link.lastTx)

/-- `IsPeerAlive(now, timeout)` (R102): alive at `elapsed = timeout`, not alive above it (C3). -/
def State.isPeerAlive (s : State) (now timeout : Time) : Bool :=
  s.link.peerKnown && decide (s.since now s.link.lastRx ≤ timeout)

/-- `TakeoverDue(t)` (R128). -/
def State.takeoverDue (s : State) (t : Time) : Bool :=
  !s.isPeerAlive t s.cfg.peerTimeout &&
    (s.link.peerKnown || !s.cfg.bootGrace || decide (s.cfg.peerTimeout < s.since t s.ctl.bootTime))

/-- The end of the break-before-make hold (R109, R110): `elapsed(Now(), ARB_BREAK_START) >= CFG_BBM`. -/
def State.holdElapsed (s : State) : Bool :=
  decide (s.cfg.bbm ≤ s.since s.now s.arb.breakStart)

/-- The end of the settle delay (R130): `elapsed(SEQ_T, CTL_TAKEOVER_START) >= CFG_SETTLE`. -/
def State.settleElapsed (s : State) : Bool :=
  decide (s.cfg.settle ≤ s.since s.seq.t s.ctl.takeoverStart)

/-- `ST_PEER_ALIVE` (R39): the liveness test at the current clock value. -/
def State.statusPeerAlive (s : State) : Bool :=
  s.isPeerAlive s.now s.cfg.peerTimeout

/-- The status outputs, R39. `ST_OWNER` is an owner: an `ARB_OWNER` that holds the reserved code has no status (R74, log
entry 9). -/
structure Status where
  owner : Owner
  role : Role
  peerKnown : Bool
  peerId : Byte
  peerAlive : Bool
  failover : Bool
  deriving DecidableEq, Repr

/-- The status outputs of a state (R39). -/
def State.status (s : State) : Option Status :=
  (Owner.ofCode s.arb.owner).map fun o =>
    { owner := o, role := s.ctl.role, peerKnown := s.link.peerKnown, peerId := s.link.peerId,
      peerAlive := s.statusPeerAlive, failover := s.ctl.failoverFlag }

/-- The packed status word (R75): bit 7 reads 0. -/
def Status.word (st : Status) : BitVec 16 :=
  st.peerId ++ 0#1 ++ BitVec.ofBool st.failover ++ BitVec.ofBool st.peerAlive ++ BitVec.ofBool st.peerKnown ++
    st.role.code ++ st.owner.code

/-- The status word a collaborator reads (R75); `none` where `ARB_OWNER` holds the reserved code. -/
def State.statusWord (s : State) : Option (BitVec 16) :=
  s.status.map Status.word

end Sys2Proof.Machine
end

