-- ==== Sys2Proof/Machine/Codec.lean ====
section
/-! DEFINITION. The frame codec's operations (spec/40_frame_codec.md): CRC8 and ENCODE. They write no register; each returns
its value (log entry 6). -/

namespace Sys2Proof.Machine

/-- CRC8 (R78): returns the checksum of a list of bytes. -/
def execCrc8 (bs : List Byte) (s : State) : StepOutcome :=
  .next (s.setResult (.byte (crc8 bs)))

/-- ENCODE (R86): returns the five bytes of a frame. -/
def execEncode (id seq : Byte) (s : State) : StepOutcome :=
  .next (s.setResult (.frame (encodeFrame id seq)))

end Sys2Proof.Machine
end

