-- ==== Sys2Proof/Machine/Link.lean ====
section
/-! DEFINITION. The heartbeat link's operations (spec/41_heartbeat_link.md): the parser rows, CONSUME_BYTE, a whole frame,
SEND, SEND_DUE and IS_PEER_ALIVE. They write link registers, the receive and transmit queues, and nothing else (R105). A row's
meaning is its rule's pseudocode; which row a byte takes is `State.rowOf` (R69, R87; log entry 5). -/

namespace Sys2Proof.Machine

/-- Accepts the captured frame (R95): the only writer of `LNK_PEER_ID`, `LNK_LAST_RX` and `LNK_PEER_KNOWN`. -/
def State.acceptFrame (s : State) : State :=
  { s with link.peerId := s.link.capId, link.lastRx := s.seq.t }.setPeerKnown true

/-- WS1_SYNC1 (R88). -/
def execWs1Sync1 (s : State) : StepOutcome :=
  .next (s.setPState .waitSync2)

/-- WS1_OTHER (R89): the byte is dropped. -/
def execWs1Other (_b : Byte) (s : State) : StepOutcome :=
  .next (s.setPState .waitSync1)

/-- WS2_SYNC2 (R90). -/
def execWs2Sync2 (s : State) : StepOutcome :=
  .next (s.setPState .captureId)

/-- WS2_RESYNC (R91): the byte is examined again as a first sync byte. -/
def execWs2Resync (s : State) : StepOutcome :=
  .next (s.setPState .waitSync2)

/-- WS2_OTHER (R92): the byte is dropped. -/
def execWs2Other (_b : Byte) (s : State) : StepOutcome :=
  .next (s.setPState .waitSync1)

/-- CAP_ID (R93). -/
def execCapId (b : Byte) (s : State) : StepOutcome :=
  .next ({ s with link.capId := b }.setPState .captureSeq)

/-- CAP_SEQ (R94). -/
def execCapSeq (b : Byte) (s : State) : StepOutcome :=
  .next ({ s with link.capSeq := b }.setPState .captureCrc)

/-- CAP_CRC_OK (R95): the frame is accepted, at the tick sample `SEQ_T`. -/
def execCapCrcOk (_b : Byte) (s : State) : StepOutcome :=
  .next (s.acceptFrame.setPState .waitSync1)

/-- CAP_CRC_BAD (R96): the frame is discarded, and the byte is not examined again. -/
def execCapCrcBad (_b : Byte) (s : State) : StepOutcome :=
  .next (s.setPState .waitSync1)

/-- PSTATE_RSV5 (R74): parser state code 5 is a fault. -/
def execPstateRsv5 (_b : Byte) (_s : State) : StepOutcome :=
  .fault (.reservedParserState 5)

/-- PSTATE_RSV67 (R74): parser state codes 6 and 7 are a fault; `low` is the code's lowest bit. -/
def execPstateRsv67 (low : BitVec 1) (_b : Byte) (_s : State) : StepOutcome :=
  .fault (.reservedParserState (0b11#2 ++ low))

/-- Runs the row a byte selected (R87). -/
def runRow (r : Row) (b : Byte) (s : State) : StepOutcome :=
  match r with
  | .ws1Sync1 => execWs1Sync1 s
  | .ws1Other => execWs1Other b s
  | .ws2Sync2 => execWs2Sync2 s
  | .ws2Resync => execWs2Resync s
  | .ws2Other => execWs2Other b s
  | .capId => execCapId b s
  | .capSeq => execCapSeq b s
  | .capCrcOk => execCapCrcOk b s
  | .capCrcBad => execCapCrcBad b s
  | .pstateRsv5 => execPstateRsv5 b s
  | .pstateRsv67 => execPstateRsv67 (s.link.pstate.extractLsb' 0 1) b s

/-- CONSUME_BYTE (R87): one byte to the parser, at the tick sample `SEQ_T`. The example of R99 names other capture registers for
its bytes than the pseudocode of R87, R93 and R94 does; the pseudocode is followed (log entry 24). -/
def execConsumeByte (b : Byte) (s : State) : StepOutcome :=
  runRow (s.rowOf b) b s

/-- Several bytes to the parser, in order. -/
def consumeAll : List Byte → State → StepOutcome
  | [], s => .next s
  | b :: bs, s => andThen (execConsumeByte b s) (consumeAll bs)

/-- HB_FRAME (R63, R66, R84): the frame's five bytes are met by the parser, in the order of the stream. It is accepted
from WaitSync1 and WaitSync2 (R98) and may be lost elsewhere (R99). Log entry 7. -/
def execHbFrame (id seq crc : Byte) (s : State) : StepOutcome :=
  consumeAll [SYNC1, SYNC2, id, seq, crc] s

/-- `Send(t)` (R101) at `t = SEQ_T`: the frame carries the counter, then the counter increments modulo 256. -/
def State.sendFrame (s : State) : State :=
  { s.txPush (encodeFrame s.cfg.ownByte s.link.txSeq) with
    link.txSeq := s.link.txSeq + 1
    link.lastTx := s.seq.t }

/-- SEND (R101). -/
def execSend (s : State) : StepOutcome :=
  .next s.sendFrame

/-- SEND_DUE (R100) at `t = SEQ_T`: returns the condition (log entry 6). -/
def execSendDue (s : State) : StepOutcome :=
  .next (s.setResult (.truth (s.sendDue s.seq.t)))

/-- IS_PEER_ALIVE (R102): returns the test (log entry 6). -/
def execIsPeerAlive (now timeout : Time) (s : State) : StepOutcome :=
  .next (s.setResult (.truth (s.isPeerAlive now timeout)))

end Sys2Proof.Machine
end

