-- ==== Sys2Proof/Machine/Arbitrator.lean ====
section
/-! DEFINITION. The bus arbitrator's operations (spec/42_bus_arbitrator.md), the only writers of `ARB_OWNER` and the lines, and
CLAIM_RETURN (spec/43_failover_controller.md R122), which ends the step of CLAIM_FINISH. -/

namespace Sys2Proof.Machine

/-- Both lines low: the first act of INITIALIZE and of a claim's break (R106, R108). -/
def State.releaseLines (s : State) : State :=
  (s.setLine .a false).setLine .b false

/-- `Initialize()` (R106). -/
def State.initializeArb (s : State) : State :=
  { s.releaseLines with arb.owner := Owner.none.code, arb.target := Owner.none.code }.setBusy false

/-- `ClaimBegin(new)` (R108): both lines low, the hold starts at a fresh clock sample. -/
def State.beginClaim (new : Owner) (s : State) : State :=
  ({ s.releaseLines with
      arb.owner := Owner.none.code
      arb.target := new.code
      arb.breakStart := s.now }.setBusy true).setPhase .claimHold

/-- CLAIM(`new`) (R107, R108): nothing if `new` owns the bus already, otherwise the break. `ARB_OWNER` is read here, so a
reserved code in it is a fault (R74). -/
def claim (new : Owner) (s : State) : StepOutcome :=
  match Owner.ofCode s.arb.owner with
  | none => .fault (.reservedOwner s.arb.owner)
  | some owner => if new = owner then .next s else .next (s.beginClaim new)

/-- The first part of `ClaimFinish()` (R110): the target's line and the ownership change together. -/
def State.makeClaim (target : Owner) (s : State) : State :=
  { s.setLine target true with arb.owner := target.code }.setBusy false

/-- `ClaimReturn()` (R122): after a takeover claim the settle delay starts at this step's sample. -/
def State.claimReturn (s : State) : State :=
  (match s.seq.ret with
    | .takeover => { s with ctl.takeoverStart := s.now }
    | .boot => s).setPhase .tickStart

/-- INITIALIZE (R106). -/
def execInitialize (s : State) : StepOutcome :=
  .next s.initializeArb

/-- CLAIM_NOOP (R107): the row of a claim whose operand owns the bus already; nothing is written. `ARB_OWNER` is read, so a
reserved code in it is a fault (R74). -/
def execClaimNoop (_new : Owner) (s : State) : StepOutcome :=
  match Owner.ofCode s.arb.owner with
  | none => .fault (.reservedOwner s.arb.owner)
  | some _ => .next s

/-- CLAIM_BEGIN (R108). -/
def execClaimBegin (new : Owner) (s : State) : StepOutcome :=
  .next (s.beginClaim new)

/-- CLAIM_HOLD (R109): the core has no step; it waits for the clock, and nothing is written (log entry 4). -/
def execClaimHold (s : State) : StepOutcome :=
  .next s

/-- CLAIM_FINISH (R110), with CLAIM_RETURN in the same step. `ARB_TARGET` is read, so a reserved code in it is a fault
(R74). -/
def execClaimFinish (s : State) : StepOutcome :=
  match Owner.ofCode s.arb.target with
  | none => .fault (.reservedTarget s.arb.target)
  | some target => .next (s.makeClaim target).claimReturn

/-- CLAIM_TO_NONE (R111): a claim to None from an owner runs the break of R108; its hold and its finish are the steps of
CLAIM_HOLD and CLAIM_FINISH, which energize no line for the target None (log entry 14). -/
def execClaimToNone (s : State) : StepOutcome :=
  .next (s.beginClaim .none)

/-- CLAIM_RETURN (R122). -/
def execClaimReturn (s : State) : StepOutcome :=
  .next s.claimReturn

end Sys2Proof.Machine
end

