-- ==== Sys2Proof/Machine/Controller.lean ====
section
/-! DEFINITION. The failover controller's operations (spec/43_failover_controller.md): boot, the phases of a tick, the role
machine, and the host's FAILOVER_ACK. Each phase is one atomic step (R117). -/

namespace Sys2Proof.Machine

/-- The registers BOOT writes before the entry claim (R121), with `t0 = Now()`. -/
def State.bootRegisters (s : State) : State :=
  { s.initializeArb.setPState .waitSync1 with
    link.txSeq := 0x00
    link.lastTx := s.now
    ctl.bootTime := s.now
    ctl.role := s.cfg.initialRole }.setPeerKnown false |>.setFailoverFlag false

/-- BOOT (R121): the registers, then the role's entry claim: for itself on the primary, None (a no-op) on the secondary. -/
def execBoot (s : State) : StepOutcome :=
  let s1 := s.bootRegisters
  if s1.ctl.role = .primaryActive then
    claim s.cfg.self { s1 with seq.ret := .boot }
  else
    andThen (claim .none s1) fun s2 => .next (s2.setPhase .tickStart)

/-- TICK_START (R123). -/
def execTickStart (s : State) : StepOutcome :=
  .next ({ s with seq.t := s.now }.setPhase .drain)

/-- DRAIN (R124): one received byte to the parser, or the end of the drain. -/
def execDrain (s : State) : StepOutcome :=
  match s.rxPop with
  | none => .next (s.setPhase .send)
  | some (b, s') => execConsumeByte b s'

/-- SEND_PHASE (R125). -/
def execSendPhase (s : State) : StepOutcome :=
  .next ((if s.sendDue s.seq.t then s.sendFrame else s).setPhase .eval)

/-- EVAL_PRIMARY (R127): no transition. -/
def execEvalPrimary (s : State) : StepOutcome :=
  .next (s.setPhase .tickStart)

/-- EVAL_STANDBY (R129): takes over when R128 holds, and claims for itself in the same step. -/
def execEvalStandby (s : State) : StepOutcome :=
  if s.takeoverDue s.seq.t then
    claim s.cfg.self ({ s with ctl.role := .takingOver, seq.ret := .takeover }.setFailoverFlag true)
  else .next (s.setPhase .tickStart)

/-- EVAL_TAKINGOVER (R130): ends the settle delay, whatever the peer does. -/
def execEvalTakingover (s : State) : StepOutcome :=
  .next ((if s.settleElapsed then { s with ctl.role := .activeAfterTakeover } else s).setPhase .tickStart)

/-- EVAL_ACTIVE_AFTER_TAKEOVER (R131): terminal; `CFG_HOLD` has no effect. -/
def execEvalActiveAfterTakeover (s : State) : StepOutcome :=
  .next (s.setPhase .tickStart)

/-- EVAL (R126): the role machine once, by `CTL_ROLE`. -/
def execEval (s : State) : StepOutcome :=
  match s.ctl.role with
  | .primaryActive => execEvalPrimary s
  | .standbyPassive => execEvalStandby s
  | .takingOver => execEvalTakingover s
  | .activeAfterTakeover => execEvalActiveAfterTakeover s

/-- FAILOVER_ACK (R136): a step of the host. -/
def execFailoverAck (s : State) : StepOutcome :=
  .next (s.setFailoverFlag false)

end Sys2Proof.Machine
end

