-- ==== Sys2Proof/Machine/Reset.lean ====
section
/-! DEFINITION. RESET (spec/70_reset_and_hazards.md): the host's power-on reset. -/

namespace Sys2Proof.Machine

/-- RESET (R155, R156): `RESET` is asserted; every register takes its reset value at once, both lines go low, and a claim in
progress is abandoned. The queues outside the core stay (log entry 11). -/
def execReset (s : State) : StepOutcome :=
  .next { s.resetRegisters with env.resetPin := true }

end Sys2Proof.Machine
end

