-- ==== Sys2Proof/Machine/Dispatch.lean ====
section
/-! DEFINITION. The meaning of every operation: one arm per constructor of `Instr`, in the order of the opcode table. -/

namespace Sys2Proof.Machine

def exec (i : Instr) (s : State) : Host.Outcome State Fault Refusal :=
  match i with
  | .hbFrame id seq crc => Sys2Proof.Machine.execHbFrame id seq crc s
  | .ws1Sync1 => Sys2Proof.Machine.execWs1Sync1 s
  | .ws1Other b => Sys2Proof.Machine.execWs1Other b s
  | .ws2Sync2 => Sys2Proof.Machine.execWs2Sync2 s
  | .ws2Resync => Sys2Proof.Machine.execWs2Resync s
  | .ws2Other b => Sys2Proof.Machine.execWs2Other b s
  | .capId b => Sys2Proof.Machine.execCapId b s
  | .capSeq b => Sys2Proof.Machine.execCapSeq b s
  | .capCrcOk b => Sys2Proof.Machine.execCapCrcOk b s
  | .capCrcBad b => Sys2Proof.Machine.execCapCrcBad b s
  | .pstateRsv5 b => Sys2Proof.Machine.execPstateRsv5 b s
  | .pstateRsv67 low b => Sys2Proof.Machine.execPstateRsv67 low b s
  | .crc8 bs => Sys2Proof.Machine.execCrc8 bs s
  | .encode id seq => Sys2Proof.Machine.execEncode id seq s
  | .consumeByte b => Sys2Proof.Machine.execConsumeByte b s
  | .send => Sys2Proof.Machine.execSend s
  | .sendDue => Sys2Proof.Machine.execSendDue s
  | .isPeerAlive now timeout => Sys2Proof.Machine.execIsPeerAlive now timeout s
  | .arbInitialize => Sys2Proof.Machine.execInitialize s
  | .claimNoop new => Sys2Proof.Machine.execClaimNoop new s
  | .claimBegin new => Sys2Proof.Machine.execClaimBegin new s
  | .claimHold => Sys2Proof.Machine.execClaimHold s
  | .claimFinish => Sys2Proof.Machine.execClaimFinish s
  | .claimToNone => Sys2Proof.Machine.execClaimToNone s
  | .claimReturn => Sys2Proof.Machine.execClaimReturn s
  | .boot => Sys2Proof.Machine.execBoot s
  | .tickStart => Sys2Proof.Machine.execTickStart s
  | .drain => Sys2Proof.Machine.execDrain s
  | .sendPhase => Sys2Proof.Machine.execSendPhase s
  | .eval => Sys2Proof.Machine.execEval s
  | .evalPrimary => Sys2Proof.Machine.execEvalPrimary s
  | .evalStandby => Sys2Proof.Machine.execEvalStandby s
  | .evalTakingover => Sys2Proof.Machine.execEvalTakingover s
  | .evalActiveAfterTakeover => Sys2Proof.Machine.execEvalActiveAfterTakeover s
  | .failoverAck => Sys2Proof.Machine.execFailoverAck s
  | .reset => Sys2Proof.Machine.execReset s

end Sys2Proof.Machine
end

