-- ==== Sys2Proof/Machine/Sequencer.lean ====
section
/-! DEFINITION. What runs next: the step relation of spec/43_failover_controller.md R117, the moves of the environment
(spec/20_memory.md R58, spec/60_exceptions.md R148), and where a table row's word is placed for the core to meet it. -/

namespace Sys2Proof.Machine

/-- The first register of the four that holds a reserved code, `PHASE` apart, as the fault R74 asks for. -/
def State.reservedCode (s : State) : Option Fault :=
  if PState.ofCode s.link.pstate = none then some (.reservedParserState s.link.pstate)
  else if Owner.ofCode s.arb.owner = none then some (.reservedOwner s.arb.owner)
  else if Owner.ofCode s.arb.target = none then some (.reservedTarget s.arb.target)
  else none

/-- The operation of a phase (R117). In CLAIM_HOLD the clock decides between waiting and the finish (R109, R110). -/
def State.phaseInstr (s : State) : Phase → Instr
  | .boot => .boot
  | .tickStart => .tickStart
  | .drain => .drain
  | .send => .sendPhase
  | .eval => .eval
  | .claimHold => if s.holdElapsed then .claimFinish else .claimHold

/-- The core's next operation (R117), or the fault of a reserved code (R74). BOOT reads none of the three other registers
and writes them all, so a reserved code in one of them does not stop it (R121, log entry 9). -/
def State.nextInstr (s : State) : Except Fault Instr :=
  match Phase.ofCode s.seq.phase with
  | none => .error (.reservedPhase s.seq.phase)
  | some .boot => .ok .boot
  | some p =>
    match s.reservedCode with
    | some f => .error f
    | none => .ok (s.phaseInstr p)

/-- The core's turn. While `RESET` is asserted the core takes no step (R155; log entry 4). -/
def coreTurn (s : State) : StepOutcome :=
  if s.env.resetPin then .next s
  else
    match s.nextInstr with
    | .error f => .fault f
    | .ok i => exec i s

/-- The integrator's move (R159, R148): a configuration is set only while `RESET` is asserted, and the registers then hold
their reset values under it (R155). With `RESET` released the environment has no such move (log entry 13). The durations and
the clock take the W bits of their ports (log entries 21 and 13). A lower `RX_DEPTH` keeps the oldest bytes already queued and
loses the rest, which the spec leaves open: DESIGN CHOICE (log entry 22). -/
def configureMove (c : Config) (s : State) : StepOutcome :=
  if s.env.resetPin then
    .next ({ s with cfg := c.narrow }.clockAdvance 0).rxTrim.resetRegisters
  else .refused .configurationWhileRunning

/-- One move (log entry 3). -/
def takeMove (m : Move) (s : State) : StepOutcome :=
  match m with
  | .core => coreTurn s
  | .clock d => .next (s.clockAdvance d)
  | .receive b => .next (s.rxArrive b)
  | .transmit => .next s.txLeave
  | .ack => exec .failoverAck s
  | .assertReset => exec .reset s
  | .releaseReset => .next { s with env.resetPin := false }
  | .configure c => configureMove c s

/-- The first of the moves to come, or the core's turn when none is left. -/
def takeTurn (s : State) : StepOutcome :=
  match s.moves with
  | [] => coreTurn s
  | m :: rest => takeMove m { s with moves := rest }

/-- Places a byte where the core meets it next: at the head of the receive queue, with the core in DRAIN and no move of the
environment before it. -/
def State.placeByte (s : State) (b : Byte) : State :=
  { s with
    seq.phase := Phase.drain.code
    env.resetPin := false
    env.rxQueue := b :: s.env.rxQueue
    moves := [] }

/-- Places a parser word: its state code in `LNK_PSTATE` and its byte at the head of the receive queue, so that the next
step's CONSUME_BYTE meets that word. For the rows of CaptureCrc, which also read the captured payload, the capture registers
take their reset values, as `decodeTableWord` has them (log entry 8). -/
def State.placeParserWord (s : State) (pw : BitVec 11) : State :=
  let s' := { s with link.pstate := wordState pw }.placeByte (wordByte pw)
  if wordState pw = PState.captureCrc.code then { s' with link.capId := 0x00, link.capSeq := 0x00 } else s'

/-- Places a frame: its five bytes at the head of the receive queue, with the core in DRAIN and the parser in WaitSync1. The
next five steps run it, a byte each (R117, R124; log entry 12). -/
def State.placeFrame (s : State) (bytes : List Byte) : State :=
  { s with
    link.pstate := PState.waitSync1.code
    seq.phase := Phase.drain.code
    env.resetPin := false
    env.rxQueue := bytes ++ s.env.rxQueue
    moves := [] }

/-- Places a table row's word (R63, R69); any other width or value is no encoding and changes nothing. -/
def State.placeTableWord (s : State) (nbits w : Nat) : State :=
  if nbits = 11 ∨ nbits = 16 then
    if w < 2 ^ 11 then s.placeParserWord (BitVec.ofNat 11 w) else s
  else if nbits = 40 then
    if w < 2 ^ 40 then s.placeFrame (frameBytes w) else s
  else s

end Sys2Proof.Machine
end

