-- ==== Sys2Proof/Machine/Step.lean ====
section
/-! DEFINITION. One step of the machine, and a table row's word placed where the step meets it. -/

namespace Sys2Proof.Machine

/-- One atomic transition (R12, R117): the next move of the environment, or the core's turn. -/
def step (s : State) : Host.Outcome State Fault Refusal :=
  takeTurn s

/-- `s` with a table row's word placed where the core meets it next (log entry 12). -/
def State.withFetchWord (s : State) (nbits w : Nat) : State :=
  s.placeTableWord nbits w

end Sys2Proof.Machine
end

