-- ==== Sys2Proof/Machine/Stimulus.lean ====
section
/-! DEFINITION. The stimulus notation of spec/30_encoding.md R77, in which spec/95_test_vectors.md writes its programs: what each
command does to one core. Log entry 17. -/

namespace Sys2Proof.Machine

/-- The names an EXPECT may read: the registers of spec/10_state.md, the clock, and the status word. -/
inductive Reg where
  | lnkPState | lnkCapId | lnkCapSeq | lnkPeerKnown | lnkPeerId | lnkLastRx | lnkTxSeq | lnkLastTx
  | arbOwner | lineA | lineB | arbBusy | arbTarget | arbBreakStart
  | ctlRole | ctlTakeoverStart | ctlBootTime | ctlFailoverFlag
  | phase | seqT | seqRet | clkMs | status
  deriving DecidableEq, Repr

/-- The value of a named register, a code where it has codes (R70 to R73); the status word has none while `ARB_OWNER` holds
the reserved code. -/
def Reg.read (s : State) : Reg → Option Nat
  | .lnkPState => some s.link.pstate.toNat
  | .lnkCapId => some s.link.capId.toNat
  | .lnkCapSeq => some s.link.capSeq.toNat
  | .lnkPeerKnown => some s.link.peerKnown.toNat
  | .lnkPeerId => some s.link.peerId.toNat
  | .lnkLastRx => some s.link.lastRx
  | .lnkTxSeq => some s.link.txSeq.toNat
  | .lnkLastTx => some s.link.lastTx
  | .arbOwner => some s.arb.owner.toNat
  | .lineA => some s.arb.lineA.toNat
  | .lineB => some s.arb.lineB.toNat
  | .arbBusy => some s.arb.busy.toNat
  | .arbTarget => some s.arb.target.toNat
  | .arbBreakStart => some s.arb.breakStart
  | .ctlRole => some s.ctl.role.code.toNat
  | .ctlTakeoverStart => some s.ctl.takeoverStart
  | .ctlBootTime => some s.ctl.bootTime
  | .ctlFailoverFlag => some s.ctl.failoverFlag.toNat
  | .phase => some s.seq.phase.toNat
  | .seqT => some s.seq.t
  | .seqRet => some s.seq.ret.code.toNat
  | .clkMs => some s.env.clkMs
  | .status => s.statusWord.map BitVec.toNat

/-- The commands of R77. -/
inductive Cmd where
  | config (c : Config)
  | reset (t : Time)
  | rx (bytes : List Byte)
  | frame (id seq : Byte)
  | tick (t : Time)
  | ack
  | expect (values : List (Reg × Nat))
  deriving DecidableEq, Repr

/-- `CLK_MS = t`. -/
def State.setClock (s : State) (t : Time) : State :=
  { s with env.clkMs := t % 2 ^ s.cfg.clockWidth }

/-- The notation's rule for a hold: `CLK_MS = ARB_BREAK_START + CFG_BBM` before the first hold step. -/
def State.clockToHoldEnd (s : State) : State :=
  if s.seq.phase = Phase.claimHold.code then s.setClock (s.arb.breakStart + s.cfg.bbm) else s

/-- Runs the core to the next TICK_START, in at most `fuel` steps. -/
def runToTickStart : Nat → State → StepOutcome
  | 0, s => .next s
  | fuel + 1, s =>
    if s.seq.phase = Phase.tickStart.code then .next s
    else andThen (coreTurn s.clockToHoldEnd) (runToTickStart fuel)

/-- `TICK @t`: one tick, from TICK_START to the next. A tick takes one step per queued byte, three more, and a hold's. -/
def runTick (t : Time) (s : State) : StepOutcome :=
  andThen (coreTurn (s.setClock t)) (runToTickStart (s.env.rxQueue.length + 4))

/-- `RESET @t`: power-on reset at clock `t`, then BOOT to its completion. -/
def runReset (t : Time) (s : State) : StepOutcome :=
  andThen (takeMove .assertReset s) fun s1 =>
  andThen (takeMove .releaseReset (s1.setClock t)) fun s2 =>
  andThen (coreTurn s2) (runToTickStart 1)

/-- Arriving bytes, in order. -/
def State.rxArriveAll (s : State) (bytes : List Byte) : State :=
  bytes.foldl State.rxArrive s

/-- One command, EXPECT apart: it changes nothing. CONFIG acts before reset, while `RESET` is asserted. -/
def runCmd (c : Cmd) (s : State) : StepOutcome :=
  match c with
  | .config cfg => andThen (takeMove .assertReset s) (takeMove (.configure cfg))
  | .reset t => runReset t s
  | .rx bytes => .next (s.rxArriveAll bytes)
  | .frame id seq => .next (s.rxArriveAll (encodeFrame id seq))
  | .tick t => runTick t s
  | .ack => takeMove .ack s
  | .expect _ => .next s

/-- Whether every EXPECT of a program holds where it stands, and no command stops. -/
def programHolds : List Cmd → State → Bool
  | [], _ => true
  | .expect values :: rest, s => values.all (fun v => v.1.read s == some v.2) && programHolds rest s
  | c :: rest, s =>
    match runCmd c s with
    | .next s' => programHolds rest s'
    | .fault _ => false
    | .refused _ => false

end Sys2Proof.Machine
end

