-- ==== Sys2Proof/Machine/System.lean ====
section
/-! DEFINITION. The two-node system of spec/60_exceptions.md R149: two cores, each with a clock of its own, joined by a byte
channel in each direction that may lose, corrupt or insert bytes (R48, D20). Log entry 16. -/

namespace Sys2Proof.Machine

/-- Two cores and the bytes in flight between them, oldest first. -/
structure System where
  nodeA : State
  nodeB : State
  /-- bytes on their way from node A to node B -/
  aToB : List Byte
  /-- bytes on their way from node B to node A -/
  bToA : List Byte
  deriving DecidableEq, Repr

/-- What may happen next in the system. -/
inductive SysMove where
  /-- node `n`'s core takes its step -/
  | core (n : Ident)
  /-- node `n`'s clock advances by `d`; the two clocks are independent -/
  | clock (n : Ident) (d : Time)
  /-- the host of node `n` acknowledges the failover flag -/
  | ack (n : Ident)
  /-- node `n`'s `RESET` is asserted -/
  | assertReset (n : Ident)
  /-- node `n`'s `RESET` is released -/
  | releaseReset (n : Ident)
  /-- the oldest byte of node `n`'s transmit queue enters its channel -/
  | depart (n : Ident)
  /-- the oldest byte on its way to node `n` arrives in its receive queue -/
  | deliver (n : Ident)
  /-- the oldest byte on its way to node `n` is lost -/
  | lose (n : Ident)
  /-- the oldest byte on its way to node `n` becomes `b` -/
  | corrupt (n : Ident) (b : Byte)
  /-- a byte `b` nobody sent appears in front of the bytes on their way to node `n` -/
  | insert (n : Ident) (b : Byte)
  deriving DecidableEq, Repr

/-- The three outcomes of a step of the system. -/
abbrev SysOutcome := Host.Outcome System Fault Refusal

/-- The core of an identity. -/
def System.node (S : System) : Ident → State
  | .a => S.nodeA
  | .b => S.nodeB

/-- Replaces the core of an identity. -/
def System.setNode (S : System) (n : Ident) (s : State) : System :=
  match n with
  | .a => { S with nodeA := s }
  | .b => { S with nodeB := s }

/-- The bytes on their way to a node. -/
def System.towards (S : System) : Ident → List Byte
  | .a => S.bToA
  | .b => S.aToB

/-- Replaces the bytes on their way to a node. -/
def System.setTowards (S : System) (n : Ident) (bytes : List Byte) : System :=
  match n with
  | .a => { S with bToA := bytes }
  | .b => { S with aToB := bytes }

/-- The other node (R3). -/
def Ident.peer : Ident → Ident
  | .a => .b
  | .b => .a

/-- One node takes a move; the other node and the channels stay. -/
def System.nodeMove (S : System) (n : Ident) (m : Move) : SysOutcome :=
  match takeMove m (S.node n) with
  | .next s => .next (S.setNode n s)
  | .fault f => .fault f
  | .refused r => .refused r

/-- The oldest byte of a node's transmit queue enters the channel to its peer. -/
def System.departByte (S : System) (n : Ident) : System :=
  match (S.node n).env.txQueue with
  | [] => S
  | b :: _ => (S.setNode n (S.node n).txLeave).setTowards (Ident.peer n) (S.towards (Ident.peer n) ++ [b])

/-- The oldest byte on its way to a node arrives. -/
def System.deliverByte (S : System) (n : Ident) : System :=
  match S.towards n with
  | [] => S
  | b :: rest => (S.setNode n ((S.node n).rxArrive b)).setTowards n rest

/-- The oldest byte on its way to a node becomes `b`. -/
def System.corruptByte (S : System) (n : Ident) (b : Byte) : System :=
  match S.towards n with
  | [] => S
  | _ :: rest => S.setTowards n (b :: rest)

/-- One step of the system (R149). -/
def sysStep (m : SysMove) (S : System) : SysOutcome :=
  match m with
  | .core n => S.nodeMove n .core
  | .clock n d => S.nodeMove n (.clock d)
  | .ack n => S.nodeMove n .ack
  | .assertReset n => S.nodeMove n .assertReset
  | .releaseReset n => S.nodeMove n .releaseReset
  | .depart n => .next (S.departByte n)
  | .deliver n => .next (S.deliverByte n)
  | .lose n => .next (S.setTowards n (S.towards n).tail)
  | .corrupt n b => .next (S.corruptByte n b)
  | .insert n b => .next (S.setTowards n (b :: S.towards n))

/-- A run of the system over a list of moves. -/
def sysRun : List SysMove → System → SysOutcome
  | [], S => .next S
  | m :: ms, S =>
    match sysStep m S with
    | .next S' => sysRun ms S'
    | .fault f => .fault f
    | .refused r => .refused r

/-- Two cores right after reset, configured as `c` but for their identities (R149, R159 items 1 and 2). What the channels hold
when the system starts is open in the spec: both are empty. DESIGN CHOICE (log entry 23). The clocks and queues of both cores
are those of `State.reset` (log entry 11). -/
def System.reset (c : Config) : System where
  nodeA := { State.reset with cfg := { c.narrow with own := .a } }.resetRegisters
  nodeB := { State.reset with cfg := { c.narrow with own := .b } }.resetRegisters
  aToB := []
  bToA := []

end Sys2Proof.Machine
end

