-- ==== Sys2Proof/Safety.lean ====
section
/-! DEFINITION. The terms the statements use: what holds at every observable instant of a run (R12), and the words of the
rules about streams of bytes. -/

namespace Sys2Proof.Machine

/-- No register holds a reserved code (R74). -/
abbrev CodesLegal (s : State) : Prop :=
  s.link.pstate < 5#3 ∧ s.arb.owner ≠ 3#2 ∧ s.arb.target ≠ 3#2 ∧ s.seq.phase < 6#3

/-- Every W-bit register, the clock input and every configured duration hold a W-bit value (R21, R23, R28, R30, R31, R34, R36,
R38, R52). -/
abbrev TimesInRange (s : State) : Prop :=
  s.cfg.InRange ∧ s.link.lastRx < 2 ^ s.cfg.clockWidth ∧ s.link.lastTx < 2 ^ s.cfg.clockWidth ∧
    s.arb.breakStart < 2 ^ s.cfg.clockWidth ∧ s.ctl.takeoverStart < 2 ^ s.cfg.clockWidth ∧
    s.ctl.bootTime < 2 ^ s.cfg.clockWidth ∧ s.seq.t < 2 ^ s.cfg.clockWidth ∧ s.env.clkMs < 2 ^ s.cfg.clockWidth

/-- The two lines are not energized together (R113). -/
abbrev NotBothLines (s : State) : Prop :=
  ¬(s.arb.lineA = true ∧ s.arb.lineB = true)

/-- The lines and the ownership agree (R114). -/
abbrev LinesMatchOwner (s : State) : Prop :=
  (s.arb.busy = false →
      (s.arb.lineA = true ↔ s.arb.owner = Owner.a.code) ∧ (s.arb.lineB = true ↔ s.arb.owner = Owner.b.code)) ∧
    (s.arb.busy = true →
      s.arb.lineA = false ∧ s.arb.lineB = false ∧ s.arb.owner = Owner.none.code ∧ s.seq.phase = Phase.claimHold.code)

/-- A claim is in progress exactly in CLAIM_HOLD, and BOOT finds the arbitrator idle and ownerless (R108, R110, R155). -/
abbrev PhaseMatchesClaim (s : State) : Prop :=
  (s.seq.phase = Phase.claimHold.code → s.arb.busy = true) ∧
    (s.seq.phase = Phase.boot.code → s.arb.busy = false ∧ s.arb.owner = Owner.none.code)

/-- The ownership a role has once BOOT has run (R134), and what a claim in progress is for (R112, R35). -/
abbrev OwnerMatchesRole (s : State) : Prop :=
  (s.seq.phase ≠ Phase.boot.code → s.arb.busy = false →
      (s.ctl.role = .standbyPassive → s.arb.owner = Owner.none.code) ∧
        (s.ctl.role ≠ .standbyPassive → s.arb.owner = s.cfg.self.code)) ∧
    (s.arb.busy = true →
      s.arb.target = s.cfg.self.code ∧
        (s.ctl.role = .primaryActive ∧ s.seq.ret = .boot ∨ s.ctl.role = .takingOver ∧ s.seq.ret = .takeover))

/-- Only identity A is ever PrimaryActive, and it is nothing else (R120, R132). -/
abbrev RoleFitsIdentity (s : State) : Prop :=
  s.ctl.role = .primaryActive ↔ s.cfg.own = .a

/-- While `RESET` is asserted every register holds its reset value, `LNK_LAST_TX` and `CTL_BOOT_TIME` apart (R155). -/
abbrev ResetHolds (s : State) : Prop :=
  s.env.resetPin = true →
    { s.resetRegisters with link.lastTx := s.link.lastTx, ctl.bootTime := s.ctl.bootTime } = s

/-- What holds at every observable instant of one core. -/
abbrev Inv (s : State) : Prop :=
  CodesLegal s ∧ TimesInRange s ∧ LinesMatchOwner s ∧ PhaseMatchesClaim s ∧ OwnerMatchesRole s ∧ RoleFitsIdentity s ∧
    ResetHolds s ∧ s.rxFits = true

/-- The two nodes are set up as R149 says: identities A and B, the same `ID_A` and `ID_B`. -/
abbrev System.Paired (S : System) : Prop :=
  S.nodeA.cfg.own = .a ∧ S.nodeB.cfg.own = .b ∧ S.nodeA.cfg.idA = S.nodeB.cfg.idA ∧ S.nodeA.cfg.idB = S.nodeB.cfg.idB

/-- Split-brain (R13, R151): both nodes' `ARB_OWNER` hold their own identity at once. -/
abbrev System.SplitBrain (S : System) : Prop :=
  S.nodeA.arb.owner = S.nodeA.cfg.self.code ∧ S.nodeB.arb.owner = S.nodeB.cfg.self.code

/-- Applies `f` to the next state of an outcome. -/
def mapNext (f : State → State) (o : StepOutcome) : StepOutcome :=
  match o with
  | .next s => .next (f s)
  | .fault r => .fault r
  | .refused r => .refused r

/-- `n` steps of the machine, stopping at the first fault or refusal. -/
def runSteps : Nat → State → StepOutcome
  | 0, s => .next s
  | n + 1, s => andThen (step s) (runSteps n)

/-- The states after each step of a sequence of directly driven claims (R113, R111): each claim is its first step (R107 or
R108) and, if it broke, its finish (R110) at the clock value given with it. -/
def claimInstants : List (Owner × Time) → State → List State
  | [], _ => []
  | (new, t) :: rest, s =>
    match claim new s with
    | .next s1 =>
      if s1.arb.busy then
        match execClaimFinish { s1 with env.clkMs := t } with
        | .next s2 => s1 :: s2 :: claimInstants rest s2
        | _ => [s1]
      else s1 :: claimInstants rest s1
    | _ => []

/-- Whether some 0xAA of a byte sequence is immediately followed by 0x55 (R98). -/
def hasSyncPair : List Byte → Bool
  | [] => false
  | [_] => false
  | b :: c :: rest => (b == 0xAA && c == 0x55) || hasSyncPair (c :: rest)

/-- Flips bit `i` of a byte sequence; bit 0 is the most significant bit of byte 0, as in the spec's vectors P-20 to P-26. -/
def flipBit (i : Nat) (f : List Byte) : List Byte :=
  f.modify (i / 8) (fun b => b ^^^ (0x80#8 >>> (i % 8)))

/-- The instruction's family is the heartbeat link of spec/41_heartbeat_link.md. -/
def Instr.isLink : Instr → Bool
  | .ws1Sync1 | .ws1Other _ | .ws2Sync2 | .ws2Resync | .ws2Other _ | .capId _ | .capSeq _ | .capCrcOk _ | .capCrcBad _ => true
  | .pstateRsv5 _ | .pstateRsv67 _ _ | .hbFrame _ _ _ | .consumeByte _ | .send | .sendDue | .isPeerAlive _ _ => true
  | .crc8 _ | .encode _ _ => false
  | .arbInitialize | .claimNoop _ | .claimBegin _ | .claimHold | .claimFinish | .claimToNone | .claimReturn => false
  | .boot | .tickStart | .drain | .sendPhase | .eval | .evalPrimary | .evalStandby | .evalTakingover => false
  | .evalActiveAfterTakeover | .failoverAck | .reset => false

end Sys2Proof.Machine
end

