-- ==== Sys2Proof/Certificates/Slice0/Obligations.lean ====
section
/-! DEFINITION. The statements for the provers, in the order of the spec's files. A difference of times is written as R10 has
it, on integers: `((a : Int) - b) % 2 ^ W`. States are arbitrary: every configuration, clock width, queue and list of moves. -/

open Sys2Proof Sys2Proof.Machine

/-! ### 40: the frame codec -/

/-- R78: CRC8 returns the bit-serial checksum: each byte is XORed into the register, then eight shifts with the polynomial
0x07, from 0x00, with a final XOR of 0x00; no register is written. That the value is returned in the field `result` is the
model's choice (log entry 6). -/
def Obligations.Crc8FollowsTheBitSerialRule : Prop :=
  ∀ (bs : List Byte) (s : State),
    exec (.crc8 bs) s = .next { s with result := .byte ((bs.foldl (fun crc b =>
      (fun c : Byte => if c.msb then (c <<< 1) ^^^ 0x07#8 else c <<< 1)^[8] (crc ^^^ b)) 0x00#8) ^^^ 0x00#8) }

/-- R80: the printed table `T` is `Crc8` of one byte, `Crc8([b0, b1]) = T[T[b0] XOR b1]`, and so on for any list. -/
def Obligations.Crc8EqualsTheTableForm : Prop :=
  (∀ v : Byte, crcLookup v = crc8 [v]) ∧
    (∀ b0 b1 : Byte, crc8 [b0, b1] = crcLookup (crcLookup b0 ^^^ b1)) ∧
    ∀ bs : List Byte, crc8 bs = bs.foldl (fun crc b => crcLookup (crc ^^^ b)) 0x00#8

/-- R81. -/
def Obligations.Crc8IsLinearOnTwoBytes : Prop :=
  ∀ a1 a2 s1 s2 : Byte, crc8 [a1 ^^^ a2, s1 ^^^ s2] = crc8 [a1, s1] ^^^ crc8 [a2, s2]

/-- R82. -/
def Obligations.Crc8ResidueIsZero : Prop :=
  ∀ id seq : Byte, crc8 [id, seq, crc8 [id, seq]] = 0x00#8

/-- R83: flipping any one of the 40 bits of a valid frame gives a pattern that is not a valid frame. -/
def Obligations.EveryBitFlipInvalidatesAFrame : Prop :=
  ∀ f : List Byte, validFrame f = true → ∀ i < 40, validFrame (flipBit i f) = false

/-- R84: a byte sequence is a valid frame iff it has five bytes, both sync bytes match and byte 4 is the checksum of bytes 2
and 3; the frame decoder accepts exactly those, and reads the three fields from them. -/
def Obligations.FrameDecodesExactlyWhenValid : Prop :=
  (∀ f : List Byte, validFrame f = true ↔
      ∃ id seq crc : Byte, f = [0xAA#8, 0x55#8, id, seq, crc] ∧ crc = crc8 [id, seq]) ∧
    ∀ (f : List Byte) (i : Instr), decodeFrame f = .ok i ↔
      ∃ id seq crc : Byte, f = [0xAA#8, 0x55#8, id, seq, crc] ∧ crc = crc8 [id, seq] ∧ i = .hbFrame id seq crc

/-- R86 and R85: ENCODE returns `[0xAA, 0x55, id, seq, Crc8([id, seq])]`, writes no register, and what it returns is a valid
frame. That the value is returned in the field `result` is the model's choice (log entry 6). -/
def Obligations.EncodeLaysOutAValidFrame : Prop :=
  ∀ (id seq : Byte) (s : State),
    exec (.encode id seq) s = .next { s with result := .frame [0xAA#8, 0x55#8, id, seq, crc8 [id, seq]] } ∧
      validFrame [0xAA#8, 0x55#8, id, seq, crc8 [id, seq]] = true

/-! ### 30: encodings -/

/-- R69: for every parser word, and either answer of the checksum comparison, exactly one line of the table matches with its
condition, and it is the row the decoder selects; the word is the parser state followed by the byte, and a consumed byte
leaves the parser in the row's next state. -/
def Obligations.EveryParserWordSelectsOneRow : Prop :=
  (∀ (crcMatches : Bool) (pw : BitVec 11),
    (parserTable.filter (RowPattern.selects crcMatches pw)).map RowPattern.row = [decodeRow crcMatches pw]) ∧
  ∀ (s : State) (b : Byte), s.link.pstate < 5#3 → ∃ t, exec (.consumeByte b) s = .next t ∧
    t.link.pstate = (match decodeRow (b == crc8 [s.link.capId, s.link.capSeq]) (s.link.pstate ++ b) with
      | .ws1Sync1 => 1#3 | .ws1Other => 0#3 | .ws2Sync2 => 2#3 | .ws2Resync => 1#3 | .ws2Other => 0#3
      | .capId => 3#3 | .capSeq => 4#3 | .capCrcOk => 0#3 | .capCrcBad => 0#3
      | .pstateRsv5 => s.link.pstate | .pstateRsv67 => s.link.pstate)

/-- Decode and encode agree: whatever has an encoding and is well-formed (against the captured payload, for the two rows that
read it) is decoded from its encoding, with every operand. -/
def Obligations.DecodeOfEncodeIsIdentity : Prop :=
  ∀ (c : Config) (capId capSeq : Byte) (i : Instr) (e : Encoding),
    i.wellFormedAt c capId capSeq = true → encode i = some e → decode capId capSeq e = .ok i

/-- The other direction: every parser word is the encoding of what it decodes to, which is well-formed, and so is every frame
that decodes. No bit of a word is dropped. -/
def Obligations.EncodeOfDecodeIsIdentity : Prop :=
  ∀ (c : Config) (capId capSeq : Byte),
    (∀ pw : BitVec 11, encode (decodeParserWord capId capSeq pw) = some (.word pw) ∧
      (decodeParserWord capId capSeq pw).wellFormedAt c capId capSeq = true) ∧
    ∀ (f : List Byte) (i : Instr), decodeFrame f = .ok i → encode i = some (.frame f) ∧ i.wellFormedAt c capId capSeq = true

/-- Sanity: words written out from the tables of R63 and R69, and a frame whose checksum is wrong. -/
def Obligations.WordsFromTheTablesDecode : Prop :=
  decodeTableWord 16 0b00010101010 = some .ws1Sync1 ∧ decodeTableWord 16 0b00001010101 = some (.ws1Other 0x55) ∧
    decodeTableWord 16 0b00101010101 = some .ws2Sync2 ∧ decodeTableWord 16 0b00110101010 = some .ws2Resync ∧
    decodeTableWord 16 0b00101000001 = some (.ws2Other 0x41) ∧ decodeTableWord 16 0b01001000001 = some (.capId 0x41) ∧
    decodeTableWord 16 0b01110101010 = some (.capSeq 0xAA) ∧ decodeTableWord 16 0b10100000000 = some (.pstateRsv5 0x00) ∧
    decodeTableWord 16 0b11100000001 = some (.pstateRsv67 1 0x01) ∧
    decodeTableWord 40 0xAA5541004E = some (.hbFrame 0x41 0x00 0x4E) ∧ decodeTableWord 40 0xAA5541004F = none

/-- A parser word placed before the core is what its next step runs: the row the word decodes to, on the state from whose
receive queue the byte has been popped; a reserved state code is the same fault. How a word is placed is the model's choice
(log entries 8 and 12). -/
def Obligations.StepRunsAPlacedParserWord : Prop :=
  ∀ (s : State) (nbits w : Nat) (i : Instr), nbits ≠ 40 → decodeTableWord nbits w = some i →
    s.arb.owner ≠ 3#2 → s.arb.target ≠ 3#2 →
      step (s.withFetchWord nbits w) = exec i { s.withFetchWord nbits w with env.rxQueue := s.env.rxQueue }

/-- A frame placed before the core runs in its next five steps, a byte each (R117, R124): together they are HB_FRAME on the
state from whose receive queue the five bytes have been popped. That HB_FRAME stands for the five bytes is the model's
reading (log entry 7), and how a frame is placed its choice (log entry 12). -/
def Obligations.PlacedFrameRunsInFiveSteps : Prop :=
  ∀ (s : State) (w : Nat) (i : Instr), decodeTableWord 40 w = some i → s.arb.owner ≠ 3#2 → s.arb.target ≠ 3#2 →
    runSteps 5 (s.withFetchWord 40 w) = exec i { s.withFetchWord 40 w with env.rxQueue := s.env.rxQueue }

/-! ### 41: the heartbeat link -/

/-- R88 to R92: in WaitSync1 (0) and WaitSync2 (1) CONSUME_BYTE runs the row of its byte, and each row writes `LNK_PSTATE`
and nothing else. -/
def Obligations.SyncBytesTakeTheirRows : Prop :=
  ∀ (s : State) (b : Byte),
    (s.link.pstate = 0#3 → exec (.consumeByte 0xAA) s = exec .ws1Sync1 s ∧
      (b ≠ 0xAA#8 → exec (.consumeByte b) s = exec (.ws1Other b) s)) ∧
    (s.link.pstate = 1#3 → exec (.consumeByte 0x55) s = exec .ws2Sync2 s ∧
      exec (.consumeByte 0xAA) s = exec .ws2Resync s ∧
      (b ≠ 0x55#8 → b ≠ 0xAA#8 → exec (.consumeByte b) s = exec (.ws2Other b) s)) ∧
    exec .ws1Sync1 s = .next { s with link.pstate := 1#3 } ∧
    exec (.ws1Other b) s = .next { s with link.pstate := 0#3 } ∧
    exec .ws2Sync2 s = .next { s with link.pstate := 2#3 } ∧
    exec .ws2Resync s = .next { s with link.pstate := 1#3 } ∧
    exec (.ws2Other b) s = .next { s with link.pstate := 0#3 }

/-- R93 to R96: in CaptureId (2), CaptureSeq (3) and CaptureCrc (4) CONSUME_BYTE runs the row of its byte: the captures, the
accepted frame, the discarded frame; each row writes the registers its rule names and nothing else. -/
def Obligations.CapturedBytesTakeTheirRows : Prop :=
  ∀ (s : State) (b : Byte),
    (s.link.pstate = 2#3 → exec (.consumeByte b) s = exec (.capId b) s) ∧
    (s.link.pstate = 3#3 → exec (.consumeByte b) s = exec (.capSeq b) s) ∧
    (s.link.pstate = 4#3 → b = crc8 [s.link.capId, s.link.capSeq] → exec (.consumeByte b) s = exec (.capCrcOk b) s) ∧
    (s.link.pstate = 4#3 → b ≠ crc8 [s.link.capId, s.link.capSeq] → exec (.consumeByte b) s = exec (.capCrcBad b) s) ∧
    exec (.capId b) s = .next { s with link.capId := b, link.pstate := 3#3 } ∧
    exec (.capSeq b) s = .next { s with link.capSeq := b, link.pstate := 4#3 } ∧
    exec (.capCrcOk b) s = .next { s with link.peerId := s.link.capId, link.lastRx := s.seq.t, link.peerKnown := true,
                                          link.pstate := 0#3 } ∧
    exec (.capCrcBad b) s = .next { s with link.pstate := 0#3 }

/-- R74: PSTATE_RSV5 and PSTATE_RSV67 stop with the fault that names the code, and so does every operation that reads a
register holding a reserved code: CONSUME_BYTE, and HB_FRAME and DRAIN of a byte, which run it, the parser state; a claim, and
EVAL_STANDBY and EVAL, which run one when a takeover is due, `ARB_OWNER`; CLAIM_FINISH `ARB_TARGET`. That the fault is raised
where the register is read is the model's reading (log entry 9). -/
def Obligations.ReservedCodesStop : Prop :=
  ∀ (s : State) (b id seq crc : Byte) (rest : List Byte) (low : BitVec 1) (new : Owner),
    exec (.pstateRsv5 b) s = .fault (.reservedParserState 5#3) ∧
    exec (.pstateRsv67 low b) s = .fault (.reservedParserState (if low = 0#1 then 6#3 else 7#3)) ∧
    (5#3 ≤ s.link.pstate → exec (.consumeByte b) s = .fault (.reservedParserState s.link.pstate) ∧
      exec (.hbFrame id seq crc) s = .fault (.reservedParserState s.link.pstate) ∧
      (s.env.rxQueue = b :: rest → exec .drain s = .fault (.reservedParserState s.link.pstate))) ∧
    (s.arb.owner = 3#2 → exec (.claimNoop new) s = .fault (.reservedOwner 3#2) ∧ claim new s = .fault (.reservedOwner 3#2) ∧
      (s.takeoverDue s.seq.t = true → exec .evalStandby s = .fault (.reservedOwner 3#2) ∧
        (s.ctl.role = .standbyPassive → exec .eval s = .fault (.reservedOwner 3#2)))) ∧
    (s.arb.target = 3#2 → exec .claimFinish s = .fault (.reservedTarget 3#2))

/-- R74 and D30, as the model reads them (log entry 9): when the core's turn comes in a state that holds a reserved code in
`PHASE`, or, in every phase but BOOT, in one of the three other coded registers, the step is a fault. -/
def Obligations.StepFaultsOnAReservedCode : Prop :=
  ∀ s : State, s.env.resetPin = false → s.moves = [] →
    (6#3 ≤ s.seq.phase → step s = .fault (.reservedPhase s.seq.phase)) ∧
    (s.seq.phase ≠ 0#3 → ¬CodesLegal s → ∃ f, step s = .fault f)

/-- R84 as the parser applies it byte by byte (R95, R96, R97): from WaitSync1, five bytes are accepted exactly when they are a
valid frame; otherwise the peer registers keep their values. -/
def Obligations.FiveBytesAcceptedExactlyWhenValid : Prop :=
  ∀ (s : State) (b0 b1 b2 b3 b4 : Byte), s.link.pstate = 0#3 →
    ∃ t, consumeAll [b0, b1, b2, b3, b4] s = .next t ∧
      if validFrame [b0, b1, b2, b3, b4] then
        t.link.peerKnown = true ∧ t.link.peerId = b2 ∧ t.link.lastRx = s.seq.t ∧ t.link.pstate = 0#3
      else
        t.link.peerKnown = s.link.peerKnown ∧ t.link.peerId = s.link.peerId ∧ t.link.lastRx = s.link.lastRx

/-- R98, its first part: a valid frame met in WaitSync1 or WaitSync2 is accepted at its fifth byte, with its identity, and not
before. HB_FRAME completes from every parser state that is not reserved (R99); that it stands for its five bytes is the
model's reading (log entry 7). -/
def Obligations.FrameAcceptedFromEitherWaitState : Prop :=
  ∀ (s : State) (id seq crc : Byte),
    (s.link.pstate = 0#3 ∨ s.link.pstate = 1#3 →
      exec (.hbFrame id seq (crc8 [id, seq])) s =
        .next { s with link.pstate := 0#3, link.capId := id, link.capSeq := seq, link.peerId := id,
                       link.lastRx := s.seq.t, link.peerKnown := true } ∧
      consumeAll [0xAA, 0x55, id, seq] s =
        .next { s with link.pstate := 4#3, link.capId := id, link.capSeq := seq }) ∧
    (s.link.pstate < 5#3 → ∃ t, exec (.hbFrame id seq crc) s = .next t)

/-- R98, its second part, with 'leaves' read as 'at every byte' (log entry 20): from WaitSync1, noise keeps the parser in
WaitSync1 or WaitSync2 at every byte if and only if no 0xAA in it is immediately followed by 0x55; and after such noise the
next valid frame is accepted. -/
def Obligations.NoiseWithoutSyncPairKeepsWaiting : Prop :=
  ∀ (s : State) (noise : List Byte), s.link.pstate = 0#3 →
    ((∀ k ≤ noise.length, ∃ t, consumeAll (noise.take k) s = .next t ∧ (t.link.pstate = 0#3 ∨ t.link.pstate = 1#3)) ↔
      hasSyncPair noise = false) ∧
    (hasSyncPair noise = false → ∀ id seq : Byte, ∃ t,
      consumeAll (noise ++ [0xAA, 0x55, id, seq, crc8 [id, seq]]) s = .next t ∧
        t.link.pstate = 0#3 ∧ t.link.peerKnown = true ∧ t.link.peerId = id ∧ t.link.lastRx = s.seq.t)

/-- R105: no operation of the heartbeat link reads or writes `ARB_OWNER`, the lines or `CTL_ROLE`: with other values in them
(in the whole arbitrator group), it does the same and leaves them as they are. -/
def Obligations.LinkNeitherReadsNorWritesArbitratorOrRole : Prop :=
  ∀ (i : Instr) (s : State) (arb : Arb) (role : Role), Machine.Instr.isLink i = true →
    exec i { s with arb := arb, ctl.role := role } =
      mapNext (fun t => { t with arb := arb, ctl.role := role }) (exec i s)

/-- R97: CONSUME_BYTE completes unless the parser state is reserved, and a consumed byte that does not complete a valid frame
changes only `LNK_PSTATE`, `LNK_CAP_ID` and `LNK_CAP_SEQ`. -/
def Obligations.ParserReportsOnlyAcceptedFrames : Prop :=
  ∀ (s : State) (b : Byte), s.link.pstate < 5#3 → ∃ t, exec (.consumeByte b) s = .next t ∧
    (¬(s.link.pstate = 4#3 ∧ b = crc8 [s.link.capId, s.link.capSeq]) →
      t = { s with link.pstate := t.link.pstate, link.capId := t.link.capId, link.capSeq := t.link.capSeq })

/-- R101: SEND pushes one frame with this node's byte (R37) and the counter, then increments the counter modulo 256 and
records the tick sample; nothing else changes. -/
def Obligations.SendEmitsOneFrame : Prop :=
  ∀ (s : State) (own : Byte), own = (if s.cfg.own = .a then s.cfg.idA else s.cfg.idB) →
    exec .send s = .next { s with
      env.txQueue := s.env.txQueue ++ [0xAA#8, 0x55#8, own, s.link.txSeq, crc8 [own, s.link.txSeq]]
      link.txSeq := BitVec.ofNat 8 ((s.link.txSeq.toNat + 1) % 256)
      link.lastTx := s.seq.t }

/-- R100 and R102: SEND_DUE returns whether a period has elapsed at the tick sample; IS_PEER_ALIVE returns whether a frame has
been accepted and the last one is at most the timeout old. Neither writes a register. That each returns its value in the
field `result` is the model's choice (log entry 6). -/
def Obligations.SendDueAndPeerAliveReturnTheirTests : Prop :=
  ∀ (s : State) (now timeout : Time),
    exec .sendDue s = .next { s with
      result := .truth (decide ((s.cfg.hbPeriod : Int) ≤ ((s.seq.t : Int) - s.link.lastTx) % 2 ^ s.cfg.clockWidth)) } ∧
    exec (.isPeerAlive now timeout) s = .next { s with
      result := .truth (s.link.peerKnown && decide (((now : Int) - s.link.lastRx) % 2 ^ s.cfg.clockWidth ≤ timeout)) }

/-- R103 and R104: for a silence `d` below `2^W`, across a wrap or not, the peer is alive exactly while `d` is at most the
timeout; before the first accepted frame it never is. -/
def Obligations.LivenessIsExactAcrossAWrap : Prop :=
  ∀ (s : State) (d timeout : Time), s.link.lastRx < 2 ^ s.cfg.clockWidth → d < 2 ^ s.cfg.clockWidth →
    (s.link.peerKnown = true →
      s.isPeerAlive ((s.link.lastRx + d) % 2 ^ s.cfg.clockWidth) timeout = decide (d ≤ timeout)) ∧
    (s.link.peerKnown = false → s.isPeerAlive ((s.link.lastRx + d) % 2 ^ s.cfg.clockWidth) timeout = false)

/-! ### 42: the bus arbitrator -/

/-- R106: INITIALIZE makes both lines low and the arbitrator idle and ownerless, from any state; nothing else changes. -/
def Obligations.InitializeMakesTheArbitratorIdle : Prop :=
  ∀ s : State, exec .arbInitialize s = .next { s with
    arb := { owner := 0#2, lineA := false, lineB := false, busy := false, target := 0#2, breakStart := s.arb.breakStart } }

/-- R107: a claim by the owner of the bus, None among them, writes nothing. -/
def Obligations.ClaimByTheOwnerDoesNothing : Prop :=
  ∀ (s : State) (new : Owner), s.arb.owner = (match new with | .none => 0#2 | .a => 1#2 | .b => 2#2) →
    exec (.claimNoop new) s = .next s ∧ claim new s = .next s

/-- R108: CLAIM_BEGIN makes both lines low, ownership None, stores the target and starts the hold at a fresh clock sample;
a claim whose operand does not own the bus is that step. CLAIM_TO_NONE (R111) begins so, with the target None: that this first
step is its meaning is the model's reading (log entry 14). -/
def Obligations.ClaimBeginBreaksBothLines : Prop :=
  ∀ (s : State) (new : Owner) (code : BitVec 2), code = (match new with | .none => 0#2 | .a => 1#2 | .b => 2#2) →
    exec (.claimBegin new) s = .next { s with
      arb := { owner := 0#2, lineA := false, lineB := false, busy := true, target := code,
               breakStart := s.env.clkMs % 2 ^ s.cfg.clockWidth }
      seq.phase := 5#3 } ∧
    exec .claimToNone s = exec (.claimBegin .none) s ∧
    (s.arb.owner ≠ code → s.arb.owner ≠ 3#2 → claim new s = exec (.claimBegin new) s)

/-- R109: CLAIM_HOLD writes nothing; while the hold's duration has not elapsed, no number of the core's turns changes the
state. That waiting is a step that changes nothing is the model's choice (log entry 4). -/
def Obligations.HoldWaitsForTheClock : Prop :=
  ∀ (s : State) (n : Nat), exec .claimHold s = .next s ∧
    (s.env.resetPin = false → s.moves = [] → CodesLegal s → s.seq.phase = 5#3 →
      ((s.env.clkMs : Int) - s.arb.breakStart) % 2 ^ s.cfg.clockWidth < s.cfg.bbm → runSteps n s = .next s)

/-- R110 and R122: CLAIM_FINISH energizes the target's line, if any, gives it the ownership, ends the claim, and in the same
step does what CLAIM_RETURN does: after a takeover claim `CTL_TAKEOVER_START` is the step's sample; `PHASE` is TICK_START. It
is the core's step in CLAIM_HOLD once the hold's duration has elapsed. -/
def Obligations.ClaimFinishMakesAndReturns : Prop :=
  ∀ s : State, s.arb.target ≠ 3#2 →
    exec .claimFinish s = .next { s with
      arb := { owner := s.arb.target, lineA := s.arb.lineA || s.arb.target == 1#2, lineB := s.arb.lineB || s.arb.target == 2#2,
               busy := false, target := s.arb.target, breakStart := s.arb.breakStart }
      ctl.takeoverStart := if s.seq.ret = .takeover then s.env.clkMs % 2 ^ s.cfg.clockWidth else s.ctl.takeoverStart
      seq.phase := 1#3 } ∧
    exec .claimReturn s = .next { s with
      ctl.takeoverStart := if s.seq.ret = .takeover then s.env.clkMs % 2 ^ s.cfg.clockWidth else s.ctl.takeoverStart
      seq.phase := 1#3 } ∧
    (s.env.resetPin = false → s.moves = [] → CodesLegal s → s.seq.phase = 5#3 →
      (s.cfg.bbm : Int) ≤ ((s.env.clkMs : Int) - s.arb.breakStart) % 2 ^ s.cfg.clockWidth → step s = exec .claimFinish s)

/-- R111: a claim to None from an owner, driven directly, de-energizes both lines, holds, and ends with no line energized and
no owner. That CLAIM_TO_NONE is the first of its steps is the model's reading (log entry 14). -/
def Obligations.ClaimToNoneEndsWithNoLine : Prop :=
  ∀ (s : State) (d : Time), s.arb.owner = 1#2 ∨ s.arb.owner = 2#2 → s.link.pstate < 5#3 → s.env.resetPin = false →
    s.cfg.bbm ≤ d → d < 2 ^ s.cfg.clockWidth →
      ∃ s1 t, exec .claimToNone s = .next s1 ∧ s1.arb.lineA = false ∧ s1.arb.lineB = false ∧ s1.seq.phase = 5#3 ∧
        runSteps 2 { s1 with moves := [.clock d, .core] } = .next t ∧
        t.arb.owner = 0#2 ∧ t.arb.lineA = false ∧ t.arb.lineB = false ∧ t.arb.busy = false ∧ t.seq.phase = 1#3

/-- R116: after a completed claim a second claim for the same owner writes nothing, whatever the clock has done. -/
def Obligations.SecondClaimIsANoOp : Prop :=
  ∀ (s : State) (x : Owner) (t : Time), ∃ s1 s2, exec (.claimBegin x) s = .next s1 ∧
    exec .claimFinish { s1 with env.clkMs := t } = .next s2 ∧ s2.arb.owner = s1.arb.target ∧
    claim x s2 = .next s2 ∧ exec (.claimNoop x) s2 = .next s2

/-- R113: for every sequence of claims, with any targets and repeats, each run to its end before the next starts, no instant
of it shows both lines energized; and every claim of the sequence has its instants. -/
def Obligations.AnySequenceOfClaimsDrivesAtMostOneLine : Prop :=
  ∀ (claims : List (Owner × Time)) (s : State), s.arb.busy = false → s.arb.owner ≠ 3#2 → LinesMatchOwner s →
    claims.length ≤ (claimInstants claims s).length ∧ ∀ t ∈ claimInstants claims s, NotBothLines t

/-- R115: a line rises only in a step of CLAIM_HOLD at which the hold's duration has elapsed since `ARB_BREAK_START`, with both
lines low; `ARB_BREAK_START` is the sample of the step that entered CLAIM_HOLD with both lines low, and keeps it. -/
def Obligations.LineRisesOnlyAfterTheHold : Prop :=
  ∀ s t : State, Inv s → step s = .next t →
    (s.arb.lineA = false ∧ t.arb.lineA = true ∨ s.arb.lineB = false ∧ t.arb.lineB = true →
      s.seq.phase = 5#3 ∧ s.arb.lineA = false ∧ s.arb.lineB = false ∧
        (s.cfg.bbm : Int) ≤ ((s.env.clkMs : Int) - s.arb.breakStart) % 2 ^ s.cfg.clockWidth) ∧
    (s.seq.phase = 5#3 → t.seq.phase = 5#3 → t.arb.breakStart = s.arb.breakStart) ∧
    (s.seq.phase ≠ 5#3 → t.seq.phase = 5#3 →
      t.arb.breakStart = s.env.clkMs % 2 ^ s.cfg.clockWidth ∧ t.arb.lineA = false ∧ t.arb.lineB = false)

/-! ### 43: the failover controller -/

/-- R121: BOOT from any state. On the primary the entry claim begins; on the secondary it is a no-op and the first tick
follows. -/
def Obligations.BootWritesRegistersAndClaims : Prop :=
  ∀ s : State,
    (s.cfg.own = .a → exec .boot s = .next { s with
      link.pstate := 0#3, link.peerKnown := false, link.txSeq := 0x00#8
      link.lastTx := s.env.clkMs % 2 ^ s.cfg.clockWidth
      arb := { owner := 0#2, lineA := false, lineB := false, busy := true, target := 1#2,
               breakStart := s.env.clkMs % 2 ^ s.cfg.clockWidth }
      ctl.role := .primaryActive, ctl.failoverFlag := false
      ctl.bootTime := s.env.clkMs % 2 ^ s.cfg.clockWidth
      seq.ret := .boot, seq.phase := 5#3 }) ∧
    (s.cfg.own = .b → exec .boot s = .next { s with
      link.pstate := 0#3, link.peerKnown := false, link.txSeq := 0x00#8
      link.lastTx := s.env.clkMs % 2 ^ s.cfg.clockWidth
      arb := { owner := 0#2, lineA := false, lineB := false, busy := false, target := 0#2,
               breakStart := s.arb.breakStart }
      ctl.role := .standbyPassive, ctl.failoverFlag := false
      ctl.bootTime := s.env.clkMs % 2 ^ s.cfg.clockWidth
      seq.phase := 1#3 })

/-- R158: the state after RESET is released, BOOT and its claim, on the primary (once the hold's duration has elapsed) and on
the secondary. -/
def Obligations.StateAfterBootAndItsClaim : Prop :=
  ∀ (s : State) (t0 d : Time), s.env.resetPin = true → ResetHolds s → t0 = s.env.clkMs % 2 ^ s.cfg.clockWidth →
    s.cfg.bbm ≤ d → d < 2 ^ s.cfg.clockWidth →
    (s.cfg.own = .a → ∃ t, runSteps 4 { s with moves := [.releaseReset, .core, .clock d, .core] } = .next t ∧
      t.ctl.role = .primaryActive ∧ t.arb.owner = 1#2 ∧ t.arb.lineA = true ∧ t.arb.lineB = false ∧ t.arb.busy = false ∧
      t.link.pstate = 0#3 ∧ t.link.peerKnown = false ∧ t.link.txSeq = 0x00#8 ∧ t.link.lastTx = t0 ∧ t.ctl.bootTime = t0 ∧
      t.ctl.failoverFlag = false ∧ t.seq.phase = 1#3 ∧
      (s.cfg.bbm : Int) ≤ ((t.env.clkMs : Int) - t0) % 2 ^ s.cfg.clockWidth) ∧
    (s.cfg.own = .b → ∃ t, runSteps 2 { s with moves := [.releaseReset, .core] } = .next t ∧
      t.ctl.role = .standbyPassive ∧ t.arb.owner = 0#2 ∧ t.arb.lineA = false ∧ t.arb.lineB = false ∧ t.arb.busy = false ∧
      t.link.pstate = 0#3 ∧ t.link.peerKnown = false ∧ t.link.txSeq = 0x00#8 ∧ t.link.lastTx = t0 ∧ t.ctl.bootTime = t0 ∧
      t.ctl.failoverFlag = false ∧ t.seq.phase = 1#3 ∧ t.env.clkMs = s.env.clkMs)

/-- R123. -/
def Obligations.TickStartSamplesTheClock : Prop :=
  ∀ s : State, exec .tickStart s = .next { s with seq.t := s.env.clkMs % 2 ^ s.cfg.clockWidth, seq.phase := 2#3 }

/-- R124: DRAIN ends when the receive queue is empty; otherwise it pops the oldest byte and is CONSUME_BYTE of it, and stays
in DRAIN. It completes unless the parser state is reserved. -/
def Obligations.DrainConsumesOneByteOrEnds : Prop :=
  ∀ s : State,
    (s.env.rxQueue = [] → exec .drain s = .next { s with seq.phase := 3#3 }) ∧
    ∀ (b : Byte) (rest : List Byte), s.env.rxQueue = b :: rest →
      exec .drain s = exec (.consumeByte b) { s with env.rxQueue := rest } ∧
      (s.link.pstate < 5#3 → ∃ t, exec .drain s = .next t ∧
        t = { s with link := t.link, env.rxQueue := rest } ∧ t.link.txSeq = s.link.txSeq ∧ t.link.lastTx = s.link.lastTx)

/-- R125: SEND_PHASE sends one frame if one is due at the tick sample, as SEND does, and goes on to EVAL in any case. -/
def Obligations.SendPhaseSendsWhenDue : Prop :=
  ∀ s : State,
    ((s.cfg.hbPeriod : Int) ≤ ((s.seq.t : Int) - s.link.lastTx) % 2 ^ s.cfg.clockWidth →
      ∃ t, exec .send s = .next t ∧ exec .sendPhase s = .next { t with seq.phase := 4#3 }) ∧
    (((s.seq.t : Int) - s.link.lastTx) % 2 ^ s.cfg.clockWidth < s.cfg.hbPeriod →
      exec .sendPhase s = .next { s with seq.phase := 4#3 })

/-- R126, R127 and R131: EVAL is the evaluation of the role held; PrimaryActive and ActiveAfterTakeover only start the next
tick, whatever the peer does; EVAL completes unless `ARB_OWNER` is reserved. -/
def Obligations.EvalRunsTheRoleHeld : Prop :=
  ∀ s : State,
    (s.ctl.role = .primaryActive → exec .eval s = exec .evalPrimary s) ∧
    (s.ctl.role = .standbyPassive → exec .eval s = exec .evalStandby s) ∧
    (s.ctl.role = .takingOver → exec .eval s = exec .evalTakingover s) ∧
    (s.ctl.role = .activeAfterTakeover → exec .eval s = exec .evalActiveAfterTakeover s) ∧
    exec .evalPrimary s = .next { s with seq.phase := 1#3 } ∧
    exec .evalActiveAfterTakeover s = .next { s with seq.phase := 1#3 } ∧
    (s.arb.owner ≠ 3#2 → ∃ t, exec .eval s = .next t)

/-- R128 and R129: in StandbyPassive the node takes over, and begins the claim for itself in the same step, exactly when the
peer's timeout is exceeded: since the last accepted frame, or before any frame since boot, or at once without the boot
grace. -/
def Obligations.StandbyTakesOverExactlyWhenDue : Prop :=
  ∀ (s : State) (due : Prop),
    (due ↔ ¬(s.link.peerKnown = true ∧
          ((s.seq.t : Int) - s.link.lastRx) % 2 ^ s.cfg.clockWidth ≤ s.cfg.peerTimeout) ∧
        (s.link.peerKnown = true ∨ s.cfg.bootGrace = false ∨
          (s.cfg.peerTimeout : Int) < ((s.seq.t : Int) - s.ctl.bootTime) % 2 ^ s.cfg.clockWidth)) →
    (due → s.arb.owner ≠ (if s.cfg.own = .a then 1#2 else 2#2) → s.arb.owner ≠ 3#2 → exec .evalStandby s = .next { s with
      ctl.role := .takingOver, ctl.failoverFlag := true
      arb := { owner := 0#2, lineA := false, lineB := false, busy := true
               target := if s.cfg.own = .a then 1#2 else 2#2
               breakStart := s.env.clkMs % 2 ^ s.cfg.clockWidth }
      seq.ret := .takeover, seq.phase := 5#3 }) ∧
    (¬due → exec .evalStandby s = .next { s with seq.phase := 1#3 })

/-- R130: in TakingOver the role becomes ActiveAfterTakeover exactly when the settle delay has elapsed at the tick sample,
whatever the peer does. -/
def Obligations.TakingOverEndsAfterTheSettleDelay : Prop :=
  ∀ s : State,
    ((s.cfg.settle : Int) ≤ ((s.seq.t : Int) - s.ctl.takeoverStart) % 2 ^ s.cfg.clockWidth →
      exec .evalTakingover s = .next { s with ctl.role := .activeAfterTakeover, seq.phase := 1#3 }) ∧
    (((s.seq.t : Int) - s.ctl.takeoverStart) % 2 ^ s.cfg.clockWidth < s.cfg.settle →
      exec .evalTakingover s = .next { s with seq.phase := 1#3 })

/-- R132 and R133: once BOOT has run, a step changes the role only in EVAL, and only from StandbyPassive to TakingOver or from
TakingOver to ActiveAfterTakeover; the only other changes are a reset and a new configuration under it. -/
def Obligations.RoleTransitionsAreExactlyTwo : Prop :=
  ∀ s t : State, step s = .next t → s.seq.phase ≠ 0#3 → s.moves.head? ≠ some .assertReset →
    (∀ c, s.moves.head? ≠ some (.configure c)) → t.ctl.role ≠ s.ctl.role →
      s.seq.phase = 4#3 ∧ (s.ctl.role = .standbyPassive ∧ t.ctl.role = .takingOver ∨
        s.ctl.role = .takingOver ∧ t.ctl.role = .activeAfterTakeover)

/-- R74, R113, R114, R134 and R155 together: from every state in which no register holds a reserved code, every time and
duration is W bits wide (R36), the lines match the ownership, the ownership matches the role, `RESET` asserted means reset values
(`LNK_LAST_TX` and `CTL_BOOT_TIME` apart, as R155 has it), and the receive queue holds at most `RX_DEPTH` bytes (R47), every
step, of the core, the host or the environment, leads to such a state. Under a new configuration the widths of its
durations are the model's reading (log entry 21), and which bytes stay queued its choice (log entry 22). -/
def Obligations.EveryStepKeepsTheInvariant : Prop :=
  ∀ s t : State, Inv s → step s = .next t → Inv t ∧ NotBothLines t

/-- The machine right after reset meets the invariant, and every register holds its reset value of R42 (`LNK_LAST_TX` and
`CTL_BOOT_TIME` apart, which BOOT writes). Its configuration, clock and queues are the model's choice (log entries 2 and 11), and
so are the two values left out here (log entry 10). -/
def Obligations.ResetStateMeetsTheInvariant : Prop :=
  Inv State.reset ∧ State.reset.link.pstate = 0#3 ∧ State.reset.link.capId = 0x00#8 ∧ State.reset.link.capSeq = 0x00#8 ∧
    State.reset.link.peerKnown = false ∧ State.reset.link.peerId = 0x00#8 ∧ State.reset.link.lastRx = 0 ∧
    State.reset.link.txSeq = 0x00#8 ∧
    State.reset.arb = { owner := 0#2, lineA := false, lineB := false, busy := false, target := 0#2, breakStart := 0 } ∧
    State.reset.ctl.role = (if State.reset.cfg.own = .a then .primaryActive else .standbyPassive) ∧
    State.reset.ctl.takeoverStart = 0 ∧ State.reset.ctl.failoverFlag = false ∧
    State.reset.seq = { phase := 0#3, t := 0, ret := .boot }

/-- R135: after a takeover that owns the bus, no run without a reset, whatever bytes arrive and however the clock moves,
changes the ownership, the lines or anything else of the arbitrator. -/
def Obligations.OwnershipIsKeptAfterATakeover : Prop :=
  ∀ (n : Nat) (s t : State), Inv s → s.ctl.role = .takingOver ∨ s.ctl.role = .activeAfterTakeover →
    s.arb.owner = (if s.cfg.own = .a then 1#2 else 2#2) → .assertReset ∉ s.moves → runSteps n s = .next t →
      t.arb = s.arb ∧ (t.ctl.role = .takingOver ∨ t.ctl.role = .activeAfterTakeover)

/-- R136: FAILOVER_ACK clears the failover flag and nothing else, at any observable instant; with the flag 0 it changes
nothing. -/
def Obligations.FailoverAckClearsTheFlag : Prop :=
  ∀ (s : State) (rest : List Move),
    exec .failoverAck s = .next { s with ctl.failoverFlag := false } ∧
    step { s with moves := .ack :: rest } = .next { s with ctl.failoverFlag := false, moves := rest } ∧
    (s.ctl.failoverFlag = false → exec .failoverAck s = .next s)

/-! ### 70: reset -/

/-- R155 and R156: RESET, at any instant, gives every register its reset value of R42 (`LNK_LAST_TX` and `CTL_BOOT_TIME`,
written at BOOT, apart), both lines low, and a claim in progress is abandoned. That the clock and both queues stay as they are
is the model's choice (log entry 11). -/
def Obligations.ResetGivesEveryRegisterItsResetValue : Prop :=
  ∀ (s : State) (rest : List Move), ∃ lastTx bootTime : Time,
    exec .reset s = .next { s with
      link := { pstate := 0#3, capId := 0x00#8, capSeq := 0x00#8, peerKnown := false, peerId := 0x00#8, lastRx := 0,
                txSeq := 0x00#8, lastTx := lastTx }
      arb := { owner := 0#2, lineA := false, lineB := false, busy := false, target := 0#2, breakStart := 0 }
      ctl := { role := if s.cfg.own = .a then .primaryActive else .standbyPassive, takeoverStart := 0,
               bootTime := bootTime, failoverFlag := false }
      seq := { phase := 0#3, t := 0, ret := .boot }
      env.resetPin := true } ∧
    step { s with moves := .assertReset :: rest } = exec .reset { s with moves := rest }

/-- R155 and R157: while `RESET` is asserted no number of turns of the core changes the state; when it is released, the core's
next step is BOOT. That the turn of a core that takes no step is a step that changes nothing is the model's choice (log
entry 4). -/
def Obligations.CoreWaitsInResetThenBoots : Prop :=
  ∀ (s : State) (n : Nat), s.env.resetPin = true →
    (s.moves = [] → runSteps n s = .next s) ∧
    (ResetHolds s → runSteps 2 { s with moves := [.releaseReset, .core] } =
      exec .boot { s with env.resetPin := false, moves := [] })

/-! ### The step -/

/-- R117: with `RESET` released and no reserved code, the core's turn runs the operation of its `PHASE`, on the state whose
first move has been taken: BOOT, TICK_START, DRAIN, SEND_PHASE, EVAL, and in CLAIM_HOLD the wait or the finish. -/
def Obligations.StepRunsTheOperationOfThePhase : Prop :=
  ∀ s : State, s.env.resetPin = false → CodesLegal s → s.moves = [] ∨ s.moves.head? = some .core →
    step s = exec
      (if s.seq.phase = 0#3 then .boot
        else if s.seq.phase = 1#3 then .tickStart
        else if s.seq.phase = 2#3 then .drain
        else if s.seq.phase = 3#3 then .sendPhase
        else if s.seq.phase = 4#3 then .eval
        else if (s.cfg.bbm : Int) ≤ ((s.env.clkMs : Int) - s.arb.breakStart) % 2 ^ s.cfg.clockWidth then .claimFinish
        else .claimHold)
      { s with moves := s.moves.tail }

/-- R139 and R119: no input stops the core. From every state that meets the invariant, every run, over any moves but a change
of the configuration of a running core (which the environment has not), goes on, and meets the invariant at every instant. In
the two states that R139 excepts, the wait of a hold and the core under `RESET`, the model goes on by a step that changes
nothing, which is its choice (log entry 4). -/
def Obligations.EveryRunGoesOn : Prop :=
  ∀ (n : Nat) (s : State), Inv s → (∀ c, .configure c ∉ s.moves) → ∃ t, runSteps n s = .next t ∧ Inv t

/-- R118: a tick with nothing arriving meanwhile takes its phases in order: after TICK_START the core is in DRAIN, one step per
queued byte, oldest first, with nothing sent; the step that finds the queue empty leaves it in SEND, still with nothing sent;
SEND leaves it in EVAL, with the controller and the arbitrator as they were; EVAL ends the tick at the next TICK_START or in the
hold of a claim. -/
def Obligations.TickTakesItsPhasesInOrder : Prop :=
  ∀ s : State, Inv s → s.env.resetPin = false → s.moves = [] → s.seq.phase = 1#3 →
    (∀ k ≤ s.env.rxQueue.length, ∃ d, runSteps (k + 1) s = .next d ∧ d.seq.phase = 2#3 ∧
      d.env.rxQueue = s.env.rxQueue.drop k ∧ d.env.txQueue = s.env.txQueue ∧ d.ctl = s.ctl ∧ d.arb = s.arb) ∧
    (∃ u, runSteps (s.env.rxQueue.length + 2) s = .next u ∧ u.seq.phase = 3#3 ∧ u.env.txQueue = s.env.txQueue ∧
      u.ctl = s.ctl ∧ u.arb = s.arb) ∧
    (∃ v, runSteps (s.env.rxQueue.length + 3) s = .next v ∧ v.seq.phase = 4#3 ∧ v.ctl = s.ctl ∧ v.arb = s.arb) ∧
    ∃ t, runSteps (s.env.rxQueue.length + 4) s = .next t ∧ t.env.rxQueue = [] ∧
      t.seq.t = s.env.clkMs % 2 ^ s.cfg.clockWidth ∧ (t.seq.phase = 1#3 ∨ t.seq.phase = 5#3 ∧ t.ctl.role = .takingOver)

/-- R16, R47, R49, R55, R58: the environment's moves write no register. The clock advances modulo `2^W`; an arriving byte
joins the end of the receive queue, or is lost when the queue is full; a byte that leaves the transmit queue stays among the
bytes pushed. -/
def Obligations.EnvironmentMovesWriteNoRegister : Prop :=
  ∀ (s : State) (rest : List Move) (d : Time) (b : Byte),
    step { s with moves := .clock d :: rest } =
      .next { s with moves := rest, env.clkMs := (s.env.clkMs + d) % 2 ^ s.cfg.clockWidth } ∧
    ((∀ depth, s.cfg.rxDepth = some depth → s.env.rxQueue.length < depth) →
      step { s with moves := .receive b :: rest } =
        .next { s with moves := rest, env.rxQueue := s.env.rxQueue ++ [b] }) ∧
    ((∃ depth, s.cfg.rxDepth = some depth ∧ depth ≤ s.env.rxQueue.length) →
      step { s with moves := .receive b :: rest } = .next { s with moves := rest }) ∧
    ∃ q w, step { s with moves := .transmit :: rest } = .next { s with moves := rest, env.txQueue := q, env.txWire := w } ∧
      w ++ q = s.env.txWire ++ s.env.txQueue ∧ q = s.env.txQueue.tail

/-- R8: while the core runs no step changes the configuration. -/
def Obligations.ConfigurationIsStaticWhileRunning : Prop :=
  ∀ s t : State, s.env.resetPin = false → step s = .next t → t.cfg = s.cfg

/-- R131 and C6: `CFG_HOLD` has no effect: with any other value every operation does the same. -/
def Obligations.HoldDurationHasNoEffect : Prop :=
  ∀ (i : Instr) (s : State) (hold : Time),
    exec i { s with cfg.hold := hold } = mapNext (fun t => { t with cfg.hold := hold }) (exec i s)

/-- R75 and R39: the bits of the status word. -/
def Obligations.StatusWordHoldsTheStatusOutputs : Prop :=
  ∀ s : State, s.arb.owner ≠ 3#2 → ∃ w : BitVec 16, s.statusWord = some w ∧
    w.extractLsb' 0 2 = s.arb.owner ∧
    w.extractLsb' 2 2 = (match s.ctl.role with
      | .primaryActive => 0#2 | .standbyPassive => 1#2 | .takingOver => 2#2 | .activeAfterTakeover => 3#2) ∧
    w[4] = s.link.peerKnown ∧
    w[5] = (s.link.peerKnown &&
      decide (((s.env.clkMs : Int) - s.link.lastRx) % 2 ^ s.cfg.clockWidth ≤ s.cfg.peerTimeout)) ∧
    w[6] = s.ctl.failoverFlag ∧ w[7] = false ∧ w.extractLsb' 8 8 = s.link.peerId

/-! ### 60: events and the two-node system -/

/-- R142, its third point: a valid frame drained in a tick prevents a takeover in that tick, even if the peer's timeout had
expired at its start. -/
def Obligations.FrameInATickPreventsItsTakeover : Prop :=
  ∀ (s : State) (id seq : Byte), Inv s → s.env.resetPin = false → s.moves = [] → s.seq.phase = 1#3 →
    s.ctl.role = .standbyPassive → s.link.pstate = 0#3 ∨ s.link.pstate = 1#3 →
    s.env.rxQueue = [0xAA#8, 0x55#8, id, seq, crc8 [id, seq]] →
      ∃ t, runSteps 9 s = .next t ∧ t.ctl.role = .standbyPassive ∧ t.seq.phase = 1#3 ∧ t.arb = s.arb ∧
        t.link.peerId = id ∧ t.link.lastRx = s.env.clkMs % 2 ^ s.cfg.clockWidth

/-- R150: a secondary in StandbyPassive whose peer's timeout is exceeded at a tick's sample, with no byte waiting, is in
TakingOver at the end of that tick, and owns the bus, with its line energized, once `CFG_BBM` has passed. It is about the
secondary alone: what the peer's own arbitrator holds is the peer's (R151, C5). -/
def Obligations.SecondaryOwnsTheBusAfterPeerSilence : Prop :=
  ∀ (s : State) (d : Time), Inv s → s.env.resetPin = false → s.seq.phase = 1#3 → s.ctl.role = .standbyPassive →
    s.env.rxQueue = [] → s.link.peerKnown = true →
    (s.cfg.peerTimeout : Int) < ((s.env.clkMs : Int) - s.link.lastRx) % 2 ^ s.cfg.clockWidth →
    s.cfg.bbm ≤ d → d < 2 ^ s.cfg.clockWidth →
      ∃ m t, runSteps 4 { s with moves := [.core, .core, .core, .core, .clock d, .core] } = .next m ∧
        m.ctl.role = .takingOver ∧ m.arb.owner = 0#2 ∧ m.arb.lineA = false ∧ m.arb.lineB = false ∧
        runSteps 2 m = .next t ∧ t.ctl.role = .takingOver ∧ t.arb.owner = 2#2 ∧ t.arb.lineA = false ∧
        t.arb.lineB = true ∧ t.ctl.failoverFlag = true ∧ t.seq.phase = 1#3 ∧
        t.ctl.takeoverStart = (s.env.clkMs + d) % 2 ^ s.cfg.clockWidth

/-- R149 and C5: every step of the two-node system keeps each node's own guarantee, so that no node ever energizes both
lines, whatever the channels do; and there is no split-brain while node B is in StandbyPassive. -/
def Obligations.EachNodeOfTheSystemStaysSafe : Prop :=
  ∀ (S T : System) (m : SysMove), Inv S.nodeA → Inv S.nodeB → S.Paired → sysStep m S = .next T →
    Inv T.nodeA ∧ Inv T.nodeB ∧ T.Paired ∧ NotBothLines T.nodeA ∧ NotBothLines T.nodeB ∧
      (T.nodeB.ctl.role = .standbyPassive → ¬T.SplitBrain)

/-- R151, case 1: split-brain is reachable without any reset after start-up, by the rules alone (C5). The run is on the
example configuration of spec/95_test_vectors.md. -/
def Obligations.SplitBrainIsReachable : Prop :=
  ∃ (moves : List SysMove) (S : System), (∀ n, .assertReset n ∉ moves) ∧
    sysRun moves (System.reset Config.suggested) = .next S ∧ S.Paired ∧ S.SplitBrain ∧
    NotBothLines S.nodeA ∧ NotBothLines S.nodeB
end

