-- ==== Sys2Proof/Laws/Decode.lean ====
section
/-! SUPPORT. The parser word and its two fields, and the row of a word by its state code. -/

namespace Sys2Proof

@[simp] theorem wordState_parserWord (p : BitVec 3) (b : Byte) : wordState (parserWord p b) = p := by
  unfold wordState parserWord
  ext i hi
  simp only [BitVec.getElem_extractLsb', BitVec.getLsbD_append]
  rw [if_neg (by omega), ← BitVec.getLsbD_eq_getElem]
  congr 1
  omega

@[simp] theorem wordByte_parserWord (p : BitVec 3) (b : Byte) : wordByte (parserWord p b) = b := by
  unfold wordByte parserWord
  ext i hi
  simp only [BitVec.getElem_extractLsb', BitVec.getLsbD_append]
  rw [if_pos (by omega), Nat.zero_add, BitVec.getLsbD_eq_getElem]

/-- A parser word is its two fields (R69). -/
@[simp] theorem parserWord_fields (pw : BitVec 11) : parserWord (wordState pw) (wordByte pw) = pw := by
  unfold parserWord wordState wordByte
  ext i hi
  simp only [BitVec.getElem_append, BitVec.getElem_extractLsb']
  split
  · rw [← BitVec.getLsbD_eq_getElem]; congr 1; omega
  · rw [← BitVec.getLsbD_eq_getElem]; congr 1; omega

/-- The row of the word that a state code and a byte make: the case analysis of R87. -/
theorem decodeRow_parserWord (m : Bool) (p : BitVec 3) (b : Byte) :
    decodeRow m (parserWord p b) =
      match p.toNat with
      | 0 => if b = SYNC1 then .ws1Sync1 else .ws1Other
      | 1 => if b = SYNC2 then .ws2Sync2 else if b = SYNC1 then .ws2Resync else .ws2Other
      | 2 => .capId
      | 3 => .capSeq
      | 4 => if m then .capCrcOk else .capCrcBad
      | 5 => .pstateRsv5
      | _ => .pstateRsv67 := by
  simp only [decodeRow, wordState_parserWord, wordByte_parserWord] <;> rfl

end Sys2Proof
end

