-- ==== Sys2Proof/Laws/State.lean ====
section
/-! SUPPORT. One lemma per field for each named update of the state: the fields it leaves and the field it writes. Fields of
a group the update does not touch follow from the group's lemma. -/

namespace Sys2Proof.Machine

/-! `State.setPhase`. -/

@[simp] theorem State.setPhase_cfg (s : State) (p : Phase) : (s.setPhase p).cfg = s.cfg := rfl
@[simp] theorem State.setPhase_link (s : State) (p : Phase) : (s.setPhase p).link = s.link := rfl
@[simp] theorem State.setPhase_arb (s : State) (p : Phase) : (s.setPhase p).arb = s.arb := rfl
@[simp] theorem State.setPhase_ctl (s : State) (p : Phase) : (s.setPhase p).ctl = s.ctl := rfl
@[simp] theorem State.setPhase_env (s : State) (p : Phase) : (s.setPhase p).env = s.env := rfl
@[simp] theorem State.setPhase_moves (s : State) (p : Phase) : (s.setPhase p).moves = s.moves := rfl
@[simp] theorem State.setPhase_result (s : State) (p : Phase) : (s.setPhase p).result = s.result := rfl
@[simp] theorem State.setPhase_seq_phase (s : State) (p : Phase) : (s.setPhase p).seq.phase = p.code := rfl
@[simp] theorem State.setPhase_seq_t (s : State) (p : Phase) : (s.setPhase p).seq.t = s.seq.t := rfl
@[simp] theorem State.setPhase_seq_ret (s : State) (p : Phase) : (s.setPhase p).seq.ret = s.seq.ret := rfl

/-! `State.setPState`. -/

@[simp] theorem State.setPState_cfg (s : State) (p : PState) : (s.setPState p).cfg = s.cfg := rfl
@[simp] theorem State.setPState_arb (s : State) (p : PState) : (s.setPState p).arb = s.arb := rfl
@[simp] theorem State.setPState_ctl (s : State) (p : PState) : (s.setPState p).ctl = s.ctl := rfl
@[simp] theorem State.setPState_seq (s : State) (p : PState) : (s.setPState p).seq = s.seq := rfl
@[simp] theorem State.setPState_env (s : State) (p : PState) : (s.setPState p).env = s.env := rfl
@[simp] theorem State.setPState_moves (s : State) (p : PState) : (s.setPState p).moves = s.moves := rfl
@[simp] theorem State.setPState_result (s : State) (p : PState) : (s.setPState p).result = s.result := rfl
@[simp] theorem State.setPState_link_pstate (s : State) (p : PState) : (s.setPState p).link.pstate = p.code := rfl
@[simp] theorem State.setPState_link_capId (s : State) (p : PState) : (s.setPState p).link.capId = s.link.capId := rfl
@[simp] theorem State.setPState_link_capSeq (s : State) (p : PState) : (s.setPState p).link.capSeq = s.link.capSeq := rfl
@[simp] theorem State.setPState_link_peerKnown (s : State) (p : PState) : (s.setPState p).link.peerKnown = s.link.peerKnown := rfl
@[simp] theorem State.setPState_link_peerId (s : State) (p : PState) : (s.setPState p).link.peerId = s.link.peerId := rfl
@[simp] theorem State.setPState_link_lastRx (s : State) (p : PState) : (s.setPState p).link.lastRx = s.link.lastRx := rfl
@[simp] theorem State.setPState_link_txSeq (s : State) (p : PState) : (s.setPState p).link.txSeq = s.link.txSeq := rfl
@[simp] theorem State.setPState_link_lastTx (s : State) (p : PState) : (s.setPState p).link.lastTx = s.link.lastTx := rfl

/-! `State.txPush`. -/

@[simp] theorem State.txPush_cfg (s : State) (bytes : List Byte) : (s.txPush bytes).cfg = s.cfg := rfl
@[simp] theorem State.txPush_link (s : State) (bytes : List Byte) : (s.txPush bytes).link = s.link := rfl
@[simp] theorem State.txPush_arb (s : State) (bytes : List Byte) : (s.txPush bytes).arb = s.arb := rfl
@[simp] theorem State.txPush_ctl (s : State) (bytes : List Byte) : (s.txPush bytes).ctl = s.ctl := rfl
@[simp] theorem State.txPush_seq (s : State) (bytes : List Byte) : (s.txPush bytes).seq = s.seq := rfl
@[simp] theorem State.txPush_moves (s : State) (bytes : List Byte) : (s.txPush bytes).moves = s.moves := rfl
@[simp] theorem State.txPush_result (s : State) (bytes : List Byte) : (s.txPush bytes).result = s.result := rfl
@[simp] theorem State.txPush_env_clkMs (s : State) (bytes : List Byte) : (s.txPush bytes).env.clkMs = s.env.clkMs := rfl
@[simp] theorem State.txPush_env_resetPin (s : State) (bytes : List Byte) : (s.txPush bytes).env.resetPin = s.env.resetPin := rfl
@[simp] theorem State.txPush_env_rxQueue (s : State) (bytes : List Byte) : (s.txPush bytes).env.rxQueue = s.env.rxQueue := rfl
@[simp] theorem State.txPush_env_txQueue (s : State) (bytes : List Byte) : (s.txPush bytes).env.txQueue = s.env.txQueue ++ bytes := rfl
@[simp] theorem State.txPush_env_txWire (s : State) (bytes : List Byte) : (s.txPush bytes).env.txWire = s.env.txWire := rfl

/-! `State.setPeerKnown`. -/

@[simp] theorem State.setPeerKnown_cfg (s : State) (v : Bool) : (s.setPeerKnown v).cfg = s.cfg := rfl
@[simp] theorem State.setPeerKnown_arb (s : State) (v : Bool) : (s.setPeerKnown v).arb = s.arb := rfl
@[simp] theorem State.setPeerKnown_ctl (s : State) (v : Bool) : (s.setPeerKnown v).ctl = s.ctl := rfl
@[simp] theorem State.setPeerKnown_seq (s : State) (v : Bool) : (s.setPeerKnown v).seq = s.seq := rfl
@[simp] theorem State.setPeerKnown_env (s : State) (v : Bool) : (s.setPeerKnown v).env = s.env := rfl
@[simp] theorem State.setPeerKnown_moves (s : State) (v : Bool) : (s.setPeerKnown v).moves = s.moves := rfl
@[simp] theorem State.setPeerKnown_result (s : State) (v : Bool) : (s.setPeerKnown v).result = s.result := rfl
@[simp] theorem State.setPeerKnown_link_pstate (s : State) (v : Bool) : (s.setPeerKnown v).link.pstate = s.link.pstate := rfl
@[simp] theorem State.setPeerKnown_link_capId (s : State) (v : Bool) : (s.setPeerKnown v).link.capId = s.link.capId := rfl
@[simp] theorem State.setPeerKnown_link_capSeq (s : State) (v : Bool) : (s.setPeerKnown v).link.capSeq = s.link.capSeq := rfl
@[simp] theorem State.setPeerKnown_link_peerKnown (s : State) (v : Bool) : (s.setPeerKnown v).link.peerKnown = v := rfl
@[simp] theorem State.setPeerKnown_link_peerId (s : State) (v : Bool) : (s.setPeerKnown v).link.peerId = s.link.peerId := rfl
@[simp] theorem State.setPeerKnown_link_lastRx (s : State) (v : Bool) : (s.setPeerKnown v).link.lastRx = s.link.lastRx := rfl
@[simp] theorem State.setPeerKnown_link_txSeq (s : State) (v : Bool) : (s.setPeerKnown v).link.txSeq = s.link.txSeq := rfl
@[simp] theorem State.setPeerKnown_link_lastTx (s : State) (v : Bool) : (s.setPeerKnown v).link.lastTx = s.link.lastTx := rfl

/-! `State.setBusy`. -/

@[simp] theorem State.setBusy_cfg (s : State) (v : Bool) : (s.setBusy v).cfg = s.cfg := rfl
@[simp] theorem State.setBusy_link (s : State) (v : Bool) : (s.setBusy v).link = s.link := rfl
@[simp] theorem State.setBusy_ctl (s : State) (v : Bool) : (s.setBusy v).ctl = s.ctl := rfl
@[simp] theorem State.setBusy_seq (s : State) (v : Bool) : (s.setBusy v).seq = s.seq := rfl
@[simp] theorem State.setBusy_env (s : State) (v : Bool) : (s.setBusy v).env = s.env := rfl
@[simp] theorem State.setBusy_moves (s : State) (v : Bool) : (s.setBusy v).moves = s.moves := rfl
@[simp] theorem State.setBusy_result (s : State) (v : Bool) : (s.setBusy v).result = s.result := rfl
@[simp] theorem State.setBusy_arb_owner (s : State) (v : Bool) : (s.setBusy v).arb.owner = s.arb.owner := rfl
@[simp] theorem State.setBusy_arb_lineA (s : State) (v : Bool) : (s.setBusy v).arb.lineA = s.arb.lineA := rfl
@[simp] theorem State.setBusy_arb_lineB (s : State) (v : Bool) : (s.setBusy v).arb.lineB = s.arb.lineB := rfl
@[simp] theorem State.setBusy_arb_busy (s : State) (v : Bool) : (s.setBusy v).arb.busy = v := rfl
@[simp] theorem State.setBusy_arb_target (s : State) (v : Bool) : (s.setBusy v).arb.target = s.arb.target := rfl
@[simp] theorem State.setBusy_arb_breakStart (s : State) (v : Bool) : (s.setBusy v).arb.breakStart = s.arb.breakStart := rfl

/-! `State.setFailoverFlag`. -/

@[simp] theorem State.setFailoverFlag_cfg (s : State) (v : Bool) : (s.setFailoverFlag v).cfg = s.cfg := rfl
@[simp] theorem State.setFailoverFlag_link (s : State) (v : Bool) : (s.setFailoverFlag v).link = s.link := rfl
@[simp] theorem State.setFailoverFlag_arb (s : State) (v : Bool) : (s.setFailoverFlag v).arb = s.arb := rfl
@[simp] theorem State.setFailoverFlag_seq (s : State) (v : Bool) : (s.setFailoverFlag v).seq = s.seq := rfl
@[simp] theorem State.setFailoverFlag_env (s : State) (v : Bool) : (s.setFailoverFlag v).env = s.env := rfl
@[simp] theorem State.setFailoverFlag_moves (s : State) (v : Bool) : (s.setFailoverFlag v).moves = s.moves := rfl
@[simp] theorem State.setFailoverFlag_result (s : State) (v : Bool) : (s.setFailoverFlag v).result = s.result := rfl
@[simp] theorem State.setFailoverFlag_ctl_role (s : State) (v : Bool) : (s.setFailoverFlag v).ctl.role = s.ctl.role := rfl
@[simp] theorem State.setFailoverFlag_ctl_takeoverStart (s : State) (v : Bool) : (s.setFailoverFlag v).ctl.takeoverStart = s.ctl.takeoverStart := rfl
@[simp] theorem State.setFailoverFlag_ctl_bootTime (s : State) (v : Bool) : (s.setFailoverFlag v).ctl.bootTime = s.ctl.bootTime := rfl
@[simp] theorem State.setFailoverFlag_ctl_failoverFlag (s : State) (v : Bool) : (s.setFailoverFlag v).ctl.failoverFlag = v := rfl

/-! `State.setResult`. -/

@[simp] theorem State.setResult_cfg (s : State) (r : OpResult) : (s.setResult r).cfg = s.cfg := rfl
@[simp] theorem State.setResult_link (s : State) (r : OpResult) : (s.setResult r).link = s.link := rfl
@[simp] theorem State.setResult_arb (s : State) (r : OpResult) : (s.setResult r).arb = s.arb := rfl
@[simp] theorem State.setResult_ctl (s : State) (r : OpResult) : (s.setResult r).ctl = s.ctl := rfl
@[simp] theorem State.setResult_seq (s : State) (r : OpResult) : (s.setResult r).seq = s.seq := rfl
@[simp] theorem State.setResult_env (s : State) (r : OpResult) : (s.setResult r).env = s.env := rfl
@[simp] theorem State.setResult_moves (s : State) (r : OpResult) : (s.setResult r).moves = s.moves := rfl
@[simp] theorem State.setResult_result (s : State) (r : OpResult) : (s.setResult r).result = r := rfl

/-! `State.clockAdvance`. -/

@[simp] theorem State.clockAdvance_cfg (s : State) (d : Time) : (s.clockAdvance d).cfg = s.cfg := rfl
@[simp] theorem State.clockAdvance_link (s : State) (d : Time) : (s.clockAdvance d).link = s.link := rfl
@[simp] theorem State.clockAdvance_arb (s : State) (d : Time) : (s.clockAdvance d).arb = s.arb := rfl
@[simp] theorem State.clockAdvance_ctl (s : State) (d : Time) : (s.clockAdvance d).ctl = s.ctl := rfl
@[simp] theorem State.clockAdvance_seq (s : State) (d : Time) : (s.clockAdvance d).seq = s.seq := rfl
@[simp] theorem State.clockAdvance_moves (s : State) (d : Time) : (s.clockAdvance d).moves = s.moves := rfl
@[simp] theorem State.clockAdvance_result (s : State) (d : Time) : (s.clockAdvance d).result = s.result := rfl
@[simp] theorem State.clockAdvance_env_clkMs (s : State) (d : Time) : (s.clockAdvance d).env.clkMs = (s.env.clkMs + d) % 2 ^ s.cfg.clockWidth := rfl
@[simp] theorem State.clockAdvance_env_resetPin (s : State) (d : Time) : (s.clockAdvance d).env.resetPin = s.env.resetPin := rfl
@[simp] theorem State.clockAdvance_env_rxQueue (s : State) (d : Time) : (s.clockAdvance d).env.rxQueue = s.env.rxQueue := rfl
@[simp] theorem State.clockAdvance_env_txQueue (s : State) (d : Time) : (s.clockAdvance d).env.txQueue = s.env.txQueue := rfl
@[simp] theorem State.clockAdvance_env_txWire (s : State) (d : Time) : (s.clockAdvance d).env.txWire = s.env.txWire := rfl

/-! `State.rxTrim`: only the receive queue changes. -/

@[simp] theorem State.rxTrim_cfg (s : State) : s.rxTrim.cfg = s.cfg := by unfold State.rxTrim; split <;> rfl
@[simp] theorem State.rxTrim_link (s : State) : s.rxTrim.link = s.link := by unfold State.rxTrim; split <;> rfl
@[simp] theorem State.rxTrim_arb (s : State) : s.rxTrim.arb = s.arb := by unfold State.rxTrim; split <;> rfl
@[simp] theorem State.rxTrim_ctl (s : State) : s.rxTrim.ctl = s.ctl := by unfold State.rxTrim; split <;> rfl
@[simp] theorem State.rxTrim_seq (s : State) : s.rxTrim.seq = s.seq := by unfold State.rxTrim; split <;> rfl
@[simp] theorem State.rxTrim_moves (s : State) : s.rxTrim.moves = s.moves := by unfold State.rxTrim; split <;> rfl
@[simp] theorem State.rxTrim_result (s : State) : s.rxTrim.result = s.result := by unfold State.rxTrim; split <;> rfl
@[simp] theorem State.rxTrim_env_clkMs (s : State) : s.rxTrim.env.clkMs = s.env.clkMs := by unfold State.rxTrim; split <;> rfl
@[simp] theorem State.rxTrim_env_resetPin (s : State) : s.rxTrim.env.resetPin = s.env.resetPin := by
  unfold State.rxTrim; split <;> rfl

/-! `State.setLine`: no other group changes; the line of the owner named takes the level, and None has no line. -/

@[simp] theorem State.setLine_cfg (s : State) (o : Owner) (e : Bool) : (s.setLine o e).cfg = s.cfg := by cases o <;> rfl
@[simp] theorem State.setLine_link (s : State) (o : Owner) (e : Bool) : (s.setLine o e).link = s.link := by cases o <;> rfl
@[simp] theorem State.setLine_ctl (s : State) (o : Owner) (e : Bool) : (s.setLine o e).ctl = s.ctl := by cases o <;> rfl
@[simp] theorem State.setLine_seq (s : State) (o : Owner) (e : Bool) : (s.setLine o e).seq = s.seq := by cases o <;> rfl
@[simp] theorem State.setLine_env (s : State) (o : Owner) (e : Bool) : (s.setLine o e).env = s.env := by cases o <;> rfl
@[simp] theorem State.setLine_moves (s : State) (o : Owner) (e : Bool) : (s.setLine o e).moves = s.moves := by cases o <;> rfl
@[simp] theorem State.setLine_result (s : State) (o : Owner) (e : Bool) : (s.setLine o e).result = s.result := by cases o <;> rfl
@[simp] theorem State.setLine_arb_owner (s : State) (o : Owner) (e : Bool) : (s.setLine o e).arb.owner = s.arb.owner := by cases o <;> rfl
@[simp] theorem State.setLine_arb_busy (s : State) (o : Owner) (e : Bool) : (s.setLine o e).arb.busy = s.arb.busy := by cases o <;> rfl
@[simp] theorem State.setLine_arb_target (s : State) (o : Owner) (e : Bool) : (s.setLine o e).arb.target = s.arb.target := by cases o <;> rfl
@[simp] theorem State.setLine_arb_breakStart (s : State) (o : Owner) (e : Bool) : (s.setLine o e).arb.breakStart = s.arb.breakStart := by cases o <;> rfl
@[simp] theorem State.setLine_none (s : State) (e : Bool) : s.setLine .none e = s := rfl
@[simp] theorem State.setLine_a_lineA (s : State) (e : Bool) : (s.setLine .a e).arb.lineA = e := rfl
@[simp] theorem State.setLine_a_lineB (s : State) (e : Bool) : (s.setLine .a e).arb.lineB = s.arb.lineB := rfl
@[simp] theorem State.setLine_b_lineB (s : State) (e : Bool) : (s.setLine .b e).arb.lineB = e := rfl
@[simp] theorem State.setLine_b_lineA (s : State) (e : Bool) : (s.setLine .b e).arb.lineA = s.arb.lineA := rfl

/-! Queues. -/

@[simp] theorem State.rxPop_nil (s : State) (h : s.env.rxQueue = []) : s.rxPop = none := by simp [State.rxPop, h]
@[simp] theorem State.rxPop_cons (s : State) (b : Byte) (rest : List Byte) (h : s.env.rxQueue = b :: rest) :
    s.rxPop = some (b, { s with env.rxQueue := rest }) := by simp [State.rxPop, h]
@[simp] theorem State.rxArrive_cfg (s : State) (b : Byte) : (s.rxArrive b).cfg = s.cfg := by
  unfold State.rxArrive; split <;> [rfl; split <;> rfl]
@[simp] theorem State.txLeave_cfg (s : State) : s.txLeave.cfg = s.cfg := by
  unfold State.txLeave; split <;> rfl
@[simp] theorem State.rxArrive_link (s : State) (b : Byte) : (s.rxArrive b).link = s.link := by
  unfold State.rxArrive; split <;> [rfl; split <;> rfl]
@[simp] theorem State.txLeave_link (s : State) : s.txLeave.link = s.link := by
  unfold State.txLeave; split <;> rfl
@[simp] theorem State.rxArrive_arb (s : State) (b : Byte) : (s.rxArrive b).arb = s.arb := by
  unfold State.rxArrive; split <;> [rfl; split <;> rfl]
@[simp] theorem State.txLeave_arb (s : State) : s.txLeave.arb = s.arb := by
  unfold State.txLeave; split <;> rfl
@[simp] theorem State.rxArrive_ctl (s : State) (b : Byte) : (s.rxArrive b).ctl = s.ctl := by
  unfold State.rxArrive; split <;> [rfl; split <;> rfl]
@[simp] theorem State.txLeave_ctl (s : State) : s.txLeave.ctl = s.ctl := by
  unfold State.txLeave; split <;> rfl
@[simp] theorem State.rxArrive_seq (s : State) (b : Byte) : (s.rxArrive b).seq = s.seq := by
  unfold State.rxArrive; split <;> [rfl; split <;> rfl]
@[simp] theorem State.txLeave_seq (s : State) : s.txLeave.seq = s.seq := by
  unfold State.txLeave; split <;> rfl
@[simp] theorem State.rxArrive_moves (s : State) (b : Byte) : (s.rxArrive b).moves = s.moves := by
  unfold State.rxArrive; split <;> [rfl; split <;> rfl]
@[simp] theorem State.txLeave_moves (s : State) : s.txLeave.moves = s.moves := by
  unfold State.txLeave; split <;> rfl
@[simp] theorem State.rxArrive_result (s : State) (b : Byte) : (s.rxArrive b).result = s.result := by
  unfold State.rxArrive; split <;> [rfl; split <;> rfl]
@[simp] theorem State.txLeave_result (s : State) : s.txLeave.result = s.result := by
  unfold State.txLeave; split <;> rfl

end Sys2Proof.Machine
end

