-- ==== Sys2Proof/Laws/Ops.lean ====
section
/-! SUPPORT. What each shared operation can do, said once: the codes, the clock, a claim, a consumed byte, a step. -/

namespace Sys2Proof

/-- An owner code is that of an owner, or reserved (R72). -/
theorem Owner.ofCode_eq_some (c : BitVec 2) (o : Owner) : Owner.ofCode c = some o ↔ c = o.code := by
  revert c; cases o <;> decide

theorem Owner.ofCode_eq_none (c : BitVec 2) : Owner.ofCode c = Option.none ↔ c = 3#2 := by
  revert c; decide

@[simp] theorem Owner.ofCode_code (o : Owner) : Owner.ofCode o.code = some o := by
  cases o <;> rfl

theorem Owner.code_injective (o p : Owner) : o.code = p.code ↔ o = p := by
  cases o <;> cases p <;> decide

/-- The ports carry W-bit durations (R36). -/
theorem Config.narrow_inRange (c : Config) : c.narrow.InRange := by
  have h := Nat.two_pow_pos c.clockWidth
  exact ⟨Nat.mod_lt _ h, Nat.mod_lt _ h, Nat.mod_lt _ h, Nat.mod_lt _ h, Nat.mod_lt _ h⟩

/-- A configuration whose durations are W bits wide is carried as it is. -/
theorem Config.narrow_eq_self (c : Config) (h : c.InRange) : c.narrow = c := by
  obtain ⟨h1, h2, h3, h4, h5⟩ := h
  simp only [Config.narrow, Nat.mod_eq_of_lt h1, Nat.mod_eq_of_lt h2, Nat.mod_eq_of_lt h3, Nat.mod_eq_of_lt h4,
    Nat.mod_eq_of_lt h5]

end Sys2Proof

namespace Sys2Proof.Machine

theorem PState.ofCode_eq_some (c : BitVec 3) (p : PState) : PState.ofCode c = some p ↔ c = p.code := by
  revert c; cases p <;> decide

theorem PState.ofCode_eq_none (c : BitVec 3) : PState.ofCode c = none ↔ 5#3 ≤ c := by
  revert c; decide

theorem Phase.ofCode_eq_some (c : BitVec 3) (p : Phase) : Phase.ofCode c = some p ↔ c = p.code := by
  revert c; cases p <;> decide

theorem Phase.ofCode_eq_none (c : BitVec 3) : Phase.ofCode c = none ↔ 6#3 ≤ c := by
  revert c; decide

@[simp] theorem Phase.ofCode_code (p : Phase) : Phase.ofCode p.code = some p := by
  cases p <;> rfl

/-! The clock (R10). -/

theorem elapsed_lt (w : Nat) (tNow tThen : Time) : elapsed w tNow tThen < 2 ^ w :=
  Nat.mod_lt _ (Nat.two_pow_pos w)

theorem State.now_lt (s : State) : s.now < 2 ^ s.cfg.clockWidth :=
  Nat.mod_lt _ (Nat.two_pow_pos _)

/-! The receive queue (R47). -/

theorem State.rxFits_iff (s : State) :
    s.rxFits = true ↔ ∀ depth, s.cfg.rxDepth = some depth → s.env.rxQueue.length ≤ depth := by
  unfold State.rxFits
  cases h : s.cfg.rxDepth <;> simp

/-- A step that adds no byte, under the same `RX_DEPTH`, keeps the bound. -/
theorem State.rxFits_of_length_le (s t : State) (hc : t.cfg.rxDepth = s.cfg.rxDepth)
    (hl : t.env.rxQueue.length ≤ s.env.rxQueue.length) (h : s.rxFits = true) : t.rxFits = true := by
  rw [State.rxFits_iff] at h ⊢
  intro depth hd
  exact hl.trans (h depth (hc ▸ hd))

theorem State.rxTrim_rxFits (s : State) : s.rxTrim.rxFits = true := by
  rw [State.rxFits_iff]
  intro depth h
  rw [State.rxTrim_cfg] at h
  simp only [State.rxTrim, h]
  exact List.length_take_le _ _

/-- An arriving byte is lost rather than overfill the queue. -/
theorem State.rxArrive_rxFits (s : State) (b : Byte) (h : s.rxFits = true) : (s.rxArrive b).rxFits = true := by
  rw [State.rxFits_iff] at h ⊢
  intro depth hd
  rw [State.rxArrive_cfg] at hd
  simp only [State.rxArrive, hd]
  split
  · simpa using ‹_›
  · exact h depth hd

/-! Sequencing. -/

theorem andThen_eq_next (o : StepOutcome) (f : State → StepOutcome) (t : State) :
    andThen o f = .next t ↔ ∃ s, o = .next s ∧ f s = .next t := by
  cases o <;> simp [andThen]

@[simp] theorem andThen_next (s : State) (f : State → StepOutcome) : andThen (.next s) f = f s := rfl

/-! Claims (R107, R108). -/

/-- All that a claim can do when it answers a next state. -/
theorem claim_eq_next (new : Owner) (s t : State) :
    claim new s = .next t ↔
      s.arb.owner = new.code ∧ t = s ∨ s.arb.owner ≠ new.code ∧ s.arb.owner ≠ 3#2 ∧ t = s.beginClaim new := by
  unfold claim
  split
  · rename_i h
    rw [Owner.ofCode_eq_none] at h
    simp only [h, reduceCtorEq, ne_eq, not_true_eq_false, false_and, and_false, or_false, false_iff, not_and]
    intro h'; cases new <;> exact absurd h' (by decide)
  · rename_i o h
    rw [Owner.ofCode_eq_some] at h
    have h3 : o.code ≠ 3#2 := by cases o <;> decide
    simp only [h, Owner.code_injective]
    by_cases hn : new = o
    · subst hn; simp [eq_comm]
    · have hn' : ¬o = new := fun e => hn e.symm
      simp [hn, hn', h3, Owner.code_injective, eq_comm]

/-- A claim answers a next state unless `ARB_OWNER` holds the reserved code. -/
theorem claim_isNext (new : Owner) (s : State) (h : s.arb.owner ≠ 3#2) : ∃ t, claim new s = .next t := by
  by_cases hn : s.arb.owner = new.code
  · exact ⟨s, (claim_eq_next _ _ _).2 (.inl ⟨hn, rfl⟩)⟩
  · exact ⟨_, (claim_eq_next _ _ _).2 (.inr ⟨hn, h, rfl⟩)⟩

/-! Consumed bytes (R87, R97). -/

/-- All that one consumed byte can do: the parser's own registers, and the accepted frame's when it is CAP_CRC_OK. -/
theorem execConsumeByte_eq_next (b : Byte) (s t : State) (h : execConsumeByte b s = .next t) :
    (∃ p i q, t = { s with link.pstate := PState.code p, link.capId := i, link.capSeq := q }) ∨
      s.link.pstate = 4 ∧ b = s.capturedCrc ∧ t = s.acceptFrame.setPState .waitSync1 := by
  unfold execConsumeByte State.rowOf at h
  rw [decodeRow_parserWord] at h
  split at h
  · split at h <;> (simp only [runRow, execWs1Sync1, execWs1Other, Host.Outcome.next.injEq] at h; subst h)
    · exact .inl ⟨.waitSync2, s.link.capId, s.link.capSeq, rfl⟩
    · exact .inl ⟨.waitSync1, s.link.capId, s.link.capSeq, rfl⟩
  · split at h
    · simp only [runRow, execWs2Sync2, Host.Outcome.next.injEq] at h; subst h
      exact .inl ⟨.captureId, s.link.capId, s.link.capSeq, rfl⟩
    · split at h <;> (simp only [runRow, execWs2Resync, execWs2Other, Host.Outcome.next.injEq] at h; subst h)
      · exact .inl ⟨.waitSync2, s.link.capId, s.link.capSeq, rfl⟩
      · exact .inl ⟨.waitSync1, s.link.capId, s.link.capSeq, rfl⟩
  · simp only [runRow, execCapId, Host.Outcome.next.injEq] at h; subst h
    exact .inl ⟨.captureSeq, b, s.link.capSeq, rfl⟩
  · simp only [runRow, execCapSeq, Host.Outcome.next.injEq] at h; subst h
    exact .inl ⟨.captureCrc, s.link.capId, b, rfl⟩
  · rename_i hp
    split at h
    · rename_i hm
      simp only [runRow, execCapCrcOk, Host.Outcome.next.injEq] at h; subst h
      exact .inr ⟨BitVec.eq_of_toNat_eq hp, by simpa using hm, rfl⟩
    · simp only [runRow, execCapCrcBad, Host.Outcome.next.injEq] at h; subst h
      exact .inl ⟨.waitSync1, s.link.capId, s.link.capSeq, rfl⟩
  · simp [runRow, execPstateRsv5] at h
  · simp [runRow, execPstateRsv67] at h

/-- A consumed byte touches the link group only. -/
theorem execConsumeByte_frame (b : Byte) (s t : State) (h : execConsumeByte b s = .next t) :
    t = { s with link := t.link } ∧ t.link.txSeq = s.link.txSeq ∧ t.link.lastTx = s.link.lastTx ∧ t.link.pstate < 5#3 := by
  rcases execConsumeByte_eq_next b s t h with ⟨p, i, q, rfl⟩ | ⟨-, -, rfl⟩
  · exact ⟨rfl, rfl, rfl, by
      have hp : p.code < 5#3 := by cases p <;> decide
      exact hp⟩
  · exact ⟨rfl, rfl, rfl, (by decide : PState.waitSync1.code < 5#3)⟩

/-- A byte is consumed in every state but a reserved one, which is a fault (R74, R87). -/
theorem execConsumeByte_isNext (b : Byte) (s : State) (h : s.link.pstate < 5#3) : ∃ t, execConsumeByte b s = .next t := by
  have h5 : s.link.pstate.toNat < 5 := by simpa [BitVec.lt_def] using h
  unfold execConsumeByte State.rowOf
  rw [decodeRow_parserWord]
  split
  · split <;> exact ⟨_, rfl⟩
  · split
    · exact ⟨_, rfl⟩
    · split <;> exact ⟨_, rfl⟩
  · exact ⟨_, rfl⟩
  · exact ⟨_, rfl⟩
  · split <;> exact ⟨_, rfl⟩
  · rename_i hp
    rw [hp] at h5
    exact absurd h5 (by decide)
  · rename_i h0 h1 h2 h3 h4 h6
    exact absurd h5 (by
      have n0 : s.link.pstate.toNat ≠ 0 := h0
      have n1 : s.link.pstate.toNat ≠ 1 := h1
      have n2 : s.link.pstate.toNat ≠ 2 := h2
      have n3 : s.link.pstate.toNat ≠ 3 := h3
      have n4 : s.link.pstate.toNat ≠ 4 := h4
      omega)

/-- Several consumed bytes touch the link group only. -/
theorem consumeAll_frame (bs : List Byte) (s t : State) (h : consumeAll bs s = .next t) :
    t = { s with link := t.link } ∧ t.link.txSeq = s.link.txSeq ∧ t.link.lastTx = s.link.lastTx := by
  induction bs generalizing s with
  | nil => cases h; exact ⟨rfl, rfl, rfl⟩
  | cons b bs ih =>
    obtain ⟨m, hm, ht⟩ := (andThen_eq_next _ _ _).1 h
    obtain ⟨e1, e2, e3, -⟩ := execConsumeByte_frame b s m hm
    obtain ⟨f1, f2, f3⟩ := ih m ht
    refine ⟨?_, f2.trans e2, f3.trans e3⟩
    rw [f1, e1]

/-! Steps (R117, R58). -/

/-- The core's turn in a state whose four coded registers are legal and whose `RESET` is released. -/
theorem coreTurn_eq_exec (s : State) (p : Phase) (hr : s.env.resetPin = false) (hp : s.seq.phase = p.code)
    (hl : s.link.pstate < 5#3) (ho : s.arb.owner ≠ 3#2) (ht : s.arb.target ≠ 3#2) :
    coreTurn s = exec (s.phaseInstr p) s := by
  have h1 : PState.ofCode s.link.pstate ≠ none := by
    rw [ne_eq, PState.ofCode_eq_none, BitVec.not_le]; exact hl
  have h2 : Owner.ofCode s.arb.owner ≠ none := by rwa [ne_eq, Owner.ofCode_eq_none]
  have h3 : Owner.ofCode s.arb.target ≠ none := by rwa [ne_eq, Owner.ofCode_eq_none]
  have hc : s.reservedCode = none := by simp [State.reservedCode, h1, h2, h3]
  unfold coreTurn State.nextInstr
  rw [hp, Phase.ofCode_code, hc, hr]
  cases p <;> rfl

/-- What `exec` the core's turn runs, when it answers a next state with `RESET` released: the operation of its phase. -/
theorem coreTurn_eq_next (s t : State) (hr : s.env.resetPin = false) (h : coreTurn s = .next t) :
    ∃ p : Phase, s.seq.phase = p.code ∧ exec (s.phaseInstr p) s = .next t := by
  unfold coreTurn State.nextInstr at h
  rw [hr] at h
  rcases hp : Phase.ofCode s.seq.phase with _ | p
  · simp [hp] at h
  · refine ⟨p, (Phase.ofCode_eq_some _ _).1 hp, ?_⟩
    cases p <;> simp only [hp, Bool.false_eq_true, if_false] at h <;> first | exact h | skip
    all_goals
      rcases hc : s.reservedCode with _ | f
      · simpa only [hc] using h
      · simp [hc] at h

end Sys2Proof.Machine
end

