-- ==== Sys2Proof/Tests/Slice0.lean ====
section
/-! SUPPORT. The author's tests: the well-formedness smoke, decoding of words written out from spec/30_encoding.md, one step of
each operation on vectors of spec/95_test_vectors.md (named in the docstrings), and for every statement with hypotheses a state
that meets them. -/

open Sys2Proof Sys2Proof.Machine

namespace Sys2Proof.Tests

/-! ### Helpers -/

/-- The next state of an outcome. -/
def nextOf (o : StepOutcome) : Option State :=
  match o with
  | .next s => some s
  | .fault _ => none
  | .refused _ => none

/-- The fault of an outcome. -/
def faultOf (o : StepOutcome) : Option Fault :=
  match o with
  | .fault f => some f
  | .next _ => none
  | .refused _ => none

/-- The refusal of an outcome. -/
def refusalOf (o : StepOutcome) : Option Refusal :=
  match o with
  | .refused r => some r
  | .next _ => none
  | .fault _ => none

/-- What is read from the next state of an outcome. -/
def readNext {α : Type} (o : StepOutcome) (f : State → α) : Option α :=
  (nextOf o).map f

/-- The secondary of spec/95_test_vectors.md, right after reset. -/
def nodeB : State := { State.reset with cfg := { Config.suggested with own := .b } }.resetRegisters

/-- The primary of spec/95_test_vectors.md, right after reset. -/
def nodeA : State := State.reset

/-- A node with the parser in a state, at a tick sample, with a captured payload. -/
def parsing (p : BitVec 3) (id seq : Byte) (t : Time) : State :=
  { nodeB with link.pstate := p, link.capId := id, link.capSeq := seq, seq.t := t, seq.phase := 2 }

/-- A node with an owner and its line, idle, in a phase. -/
def owning (o : Owner) (p : Phase) : State :=
  { nodeB with arb.owner := o.code, arb.lineA := o == .a, arb.lineB := o == .b, seq.phase := p.code }

/-- A secondary in EVAL of a tick sampled at `t`, that has accepted a frame at 0. -/
def standbyAt (t : Time) : State :=
  { nodeB with link.peerKnown := true, link.peerId := 0x41, seq.t := t, seq.phase := 4, env.clkMs := t }

/-- A secondary holding a takeover claim for itself since `start`, with the clock at `now`. -/
def holding (start now : Time) : State :=
  { nodeB with arb.busy := true, arb.target := 2, arb.breakStart := start, ctl.role := .takingOver, seq.ret := .takeover,
               seq.phase := 5, env.clkMs := now }

/-- A secondary after its takeover, owning the bus, in EVAL of a tick sampled at `t`. -/
def takenOver (role : Role) (t : Time) : State :=
  { nodeB with arb.owner := 2, arb.lineB := true, ctl.role := role, ctl.takeoverStart := 2051, ctl.failoverFlag := true,
               seq.t := t, seq.phase := 4, env.clkMs := t }

/-- A node under reset. -/
def inReset (s : State) : State :=
  { s with env.resetPin := true }

/-! ### Well-formedness: every check refuses an ill-formed term -/

theorem test_wellFormed_hbFrame : Instr.wellFormed Config.suggested (.hbFrame 0x41 0x00 0x4E) = true := by decide +kernel
theorem test_illFormed_hbFrame_checksum : Instr.wellFormed Config.suggested (.hbFrame 0x41 0x00 0x4F) = false := by decide +kernel
theorem test_illFormed_ws1Other_sync : Instr.wellFormed Config.suggested (.ws1Other 0xAA) = false := by decide
theorem test_illFormed_ws2Other_sync2 : Instr.wellFormed Config.suggested (.ws2Other 0x55) = false := by decide
theorem test_illFormed_ws2Other_sync1 : Instr.wellFormed Config.suggested (.ws2Other 0xAA) = false := by decide
theorem test_illFormed_isPeerAlive_now : Instr.wellFormed Config.suggested (.isPeerAlive (2 ^ 32) 0) = false := by decide
theorem test_illFormed_isPeerAlive_timeout : Instr.wellFormed Config.suggested (.isPeerAlive 0 (2 ^ 32)) = false := by decide
theorem test_illFormed_capCrcOk : Instr.wellFormedAt Config.suggested 0x41 0x00 (.capCrcOk 0x4F) = false := by decide +kernel
theorem test_illFormed_capCrcBad : Instr.wellFormedAt Config.suggested 0x41 0x00 (.capCrcBad 0x4E) = false := by decide +kernel

/-! ### Decoding: the words of spec/30_encoding.md R69 and R63, written out -/

theorem test_decode_ws1Sync1 : decodeTableWord 16 0b000_10101010 = some .ws1Sync1 := by decide
theorem test_decode_ws1Other : decodeTableWord 16 0b000_01010101 = some (.ws1Other 0x55) := by decide
theorem test_decode_ws2Sync2 : decodeTableWord 16 0b001_01010101 = some .ws2Sync2 := by decide
theorem test_decode_ws2Resync : decodeTableWord 16 0b001_10101010 = some .ws2Resync := by decide
theorem test_decode_ws2Other : decodeTableWord 16 0b001_01000001 = some (.ws2Other 0x41) := by decide
theorem test_decode_capId : decodeTableWord 16 0b010_01010101 = some (.capId 0x55) := by decide
theorem test_decode_capSeq : decodeTableWord 16 0b011_10101010 = some (.capSeq 0xAA) := by decide
/-- Against the captured payload 41 00 the checksum is 4E (P-9a, P-9b). -/
theorem test_decode_capCrcOk : decodeParserWord 0x41 0x00 0b100_01001110#11 = .capCrcOk 0x4E := by decide +kernel
theorem test_decode_capCrcBad : decodeParserWord 0x41 0x00 0b100_01001111#11 = .capCrcBad 0x4F := by decide +kernel
theorem test_decode_pstateRsv5 : decodeTableWord 16 0b101_00000000 = some (.pstateRsv5 0x00) := by decide
theorem test_decode_pstateRsv67_six : decodeTableWord 16 0b110_11111111 = some (.pstateRsv67 0 0xFF) := by decide
theorem test_decode_pstateRsv67_seven : decodeTableWord 16 0b111_00000001 = some (.pstateRsv67 1 0x01) := by decide
/-- ENC-3, bit by bit: AA 55 42 FF 82. -/
theorem test_decode_hbFrame :
    decodeTableWord 40 0b10101010_01010101_01000010_11111111_10000010 = some (.hbFrame 0x42 0xFF 0x82) := by decide +kernel
theorem test_decode_above_the_word : decodeTableWord 16 0b1000_00000000 = none := by decide
theorem test_frame_refused_length : decodeFrame [0xAA, 0x55, 0x41, 0x00] = .error .length := by decide
theorem test_frame_refused_syncA : decodeFrame [0x2A, 0x55, 0x41, 0x00, 0x4E] = .error .syncA := by decide
theorem test_frame_refused_syncB : decodeFrame [0xAA, 0xD5, 0x41, 0x00, 0x4E] = .error .syncB := by decide
theorem test_frame_refused_checksum : decodeFrame [0xAA, 0x55, 0xC1, 0x00, 0x4E] = .error .checksum := by decide +kernel
theorem test_encode_capSeq : encode (.capSeq 0xAA) = some (.word 0x3AA) := by decide
theorem test_encode_pstateRsv67 : encode (.pstateRsv67 1 0x01) = some (.word 0x701) := by decide

/-! ### Codes (R72: code 3 is reserved) -/

theorem test_owner_code_three_reserved : Owner.ofCode 3 = Option.none := by decide
theorem test_owner_code_zero : Owner.ofCode 0 = some .none := by decide

/-! ### The frame codec -/

/-- CRC-1, the catalogue check value. -/
theorem test_crc8_check : readNext (exec (.crc8 [0x31, 0x32, 0x33, 0x34, 0x35, 0x36, 0x37, 0x38, 0x39]) nodeA) (·.result) =
    some (.byte 0xF4) := by decide +kernel
/-- R78: the empty list. -/
theorem test_crc8_empty : readNext (exec (.crc8 []) nodeA) (·.result) =
    some (.byte 0x00) := by decide
/-- ENC-4. -/
theorem test_encode_sync_payload : readNext (exec (.encode 0xAA 0x55) nodeA) (·.result) =
    some (.frame [0xAA, 0x55, 0xAA, 0x55, 0x36]) := by decide +kernel
/-- ENC-5. -/
theorem test_encode_frame : readNext (exec (.encode 0x41 0x07) nodeA) (·.result) =
    some (.frame [0xAA, 0x55, 0x41, 0x07, 0x5B]) := by decide +kernel

/-! ### The parser rows (P-1 to P-9d) and CONSUME_BYTE -/

theorem test_ws1Sync1 : readNext (exec .ws1Sync1 (parsing 0 0 0 0)) (·.link.pstate) = some 1 := by decide
theorem test_ws1Other : readNext (exec (.ws1Other 0x55) (parsing 0 0 0 0)) (·.link.pstate) = some 0 := by decide
theorem test_ws2Sync2 : readNext (exec .ws2Sync2 (parsing 1 0 0 0)) (·.link.pstate) = some 2 := by decide
theorem test_ws2Resync : readNext (exec .ws2Resync (parsing 1 0 0 0)) (·.link.pstate) = some 1 := by decide
theorem test_ws2Other : readNext (exec (.ws2Other 0x41) (parsing 1 0 0 0)) (·.link.pstate) = some 0 := by decide
theorem test_capId : readNext (exec (.capId 0x55) (parsing 2 0 0 0)) (fun s => (s.link.pstate, s.link.capId)) =
    some (3, 0x55) := by decide
theorem test_capSeq : readNext (exec (.capSeq 0xAA) (parsing 3 0x41 0 0)) (fun s => (s.link.pstate, s.link.capSeq)) =
    some (4, 0xAA) := by decide
theorem test_capCrcOk : readNext (exec (.capCrcOk 0x4E) (parsing 4 0x41 0x00 1000))
    (fun s => (s.link.pstate, s.link.peerId, s.link.lastRx, s.link.peerKnown)) = some (0, 0x41, 1000, true) := by decide
theorem test_capCrcBad : readNext (exec (.capCrcBad 0x4F) (parsing 4 0x41 0x00 1000))
    (fun s => (s.link.pstate, s.link.lastRx, s.link.peerKnown)) = some (0, 0, false) := by decide
theorem test_pstateRsv5 : faultOf (exec (.pstateRsv5 0x00) (parsing 5 0 0 0)) = some (.reservedParserState 5) := by decide
theorem test_pstateRsv67 : faultOf (exec (.pstateRsv67 1 0x00) (parsing 7 0 0 0)) = some (.reservedParserState 7) := by decide
/-- P-9a through CONSUME_BYTE. -/
theorem test_consumeByte_accepts : readNext (exec (.consumeByte 0x4E) (parsing 4 0x41 0x00 1000))
    (fun s => (s.link.peerId, s.link.lastRx)) = some (0x41, 1000) := by decide +kernel
/-- P-9c: the bad byte is not examined again. -/
theorem test_consumeByte_bad_sync : readNext (exec (.consumeByte 0xAA) (parsing 4 0x41 0x00 1000))
    (fun s => (s.link.pstate, s.link.peerKnown)) = some (0, false) := by decide +kernel
/-- P-19: a frame whose payload repeats the sync bytes. -/
theorem test_hbFrame_accepted : readNext (exec (.hbFrame 0xAA 0x55 0x36) (parsing 0 0 0 7))
    (fun s => (s.link.peerId, s.link.lastRx, s.link.pstate)) = some (0xAA, 7, 0) := by decide +kernel
/-- R99 (P-16): a frame met in CaptureSeq is lost. By R94 its first byte is the sequence, and its second fails against
`Crc8([41, AA]) = 11` (CRC-13; log entry 24). -/
theorem test_hbFrame_lost : readNext (exec (.hbFrame 0x41 0x01 0x49) (parsing 3 0x41 0 7))
    (fun s => (s.link.peerKnown, s.link.pstate, s.link.capId, s.link.capSeq)) = some (false, 0, 0x41, 0xAA) := by decide +kernel

/-! ### SEND, SEND_DUE, IS_PEER_ALIVE (S-*, L-*) -/

/-- S-4: the silent wrap. -/
theorem test_send_wraps : readNext (exec .send { nodeA with link.txSeq := 0xFF, seq.t := 500 })
    (fun s => (s.env.txQueue, s.link.txSeq, s.link.lastTx)) = some ([0xAA, 0x55, 0x41, 0xFF, 0xBD], 0x00, 500) := by decide +kernel
/-- S-8. -/
theorem test_send_secondary : readNext (exec .send { nodeB with seq.t := 500 }) (·.env.txQueue) =
    some [0xAA, 0x55, 0x42, 0x00, 0x71] := by decide +kernel
/-- S-5 and S-6. -/
theorem test_sendDue_before : readNext (exec .sendDue { nodeA with link.lastTx := 0xFFFFFF00, seq.t := 0xF3 }) (·.result) =
    some (.truth false) := by decide
theorem test_sendDue_at : readNext (exec .sendDue { nodeA with link.lastTx := 0xFFFFFF00, seq.t := 0xF4 }) (·.result) =
    some (.truth true) := by decide
/-- L-6 and L-7. -/
theorem test_isPeerAlive_at_timeout : readNext
    (exec (.isPeerAlive 0x6D0 2000) { nodeB with link.peerKnown := true, link.lastRx := 0xFFFFFF00 }) (·.result) =
      some (.truth true) := by decide
theorem test_isPeerAlive_after_timeout : readNext
    (exec (.isPeerAlive 0x6D1 2000) { nodeB with link.peerKnown := true, link.lastRx := 0xFFFFFF00 }) (·.result) =
      some (.truth false) := by decide

/-! ### The arbitrator (ARB-*) -/

/-- The lines, the owner and the busy flag. -/
def lines (s : State) : Bool × Bool × BitVec 2 × Bool :=
  (s.arb.lineA, s.arb.lineB, s.arb.owner, s.arb.busy)

theorem test_initialize : readNext (exec .arbInitialize (owning .a .tickStart)) lines = some (false, false, 0, false) := by decide
/-- ARB-1 and ARB-5. -/
theorem test_claimNoop_none : nextOf (exec (.claimNoop .none) nodeB) = some nodeB := by decide
theorem test_claimNoop_reserved : faultOf (exec (.claimNoop .a) { nodeB with arb.owner := 3 }) = some (.reservedOwner 3) := by
  decide
/-- ARB-6. -/
theorem test_claimBegin : readNext (exec (.claimBegin .b) { owning .a .eval with env.clkMs := 200 })
    (fun s => (lines s, s.arb.target, s.arb.breakStart, s.seq.phase)) = some ((false, false, 0, true), 2, 200, 5) := by decide
/-- ARB-7. -/
theorem test_claimHold : nextOf (step (holding 200 249)) = some (holding 200 249) := by decide
/-- ARB-8. -/
theorem test_claimFinish : readNext (step (holding 200 250)) (fun s => (lines s, s.ctl.takeoverStart, s.seq.phase)) =
    some ((false, true, 2, false), 250, 1) := by decide
theorem test_claimFinish_reserved : faultOf (exec .claimFinish { holding 200 250 with arb.target := 3 }) =
    some (.reservedTarget 3) := by decide
/-- ARB-10 and ARB-11. -/
theorem test_claimToNone : readNext (exec .claimToNone { owning .b .eval with env.clkMs := 400 })
    (fun s => (lines s, s.arb.breakStart)) = some ((false, false, 0, true), 400) := by decide
theorem test_claimToNone_ends : readNext (exec .claimFinish { holding 400 450 with arb.target := 0 }) lines =
    some (false, false, 0, false) := by decide
/-- R122. -/
theorem test_claimReturn_takeover : readNext (exec .claimReturn (holding 0 2560))
    (fun s => (s.ctl.takeoverStart, s.seq.phase)) = some (2560, 1) := by decide
theorem test_claimReturn_boot : readNext (exec .claimReturn { holding 0 2560 with seq.ret := .boot })
    (fun s => (s.ctl.takeoverStart, s.seq.phase)) = some (0, 1) := by decide
/-- The hold across the clock wrap: no finish at elapsed 49, finish at 50. -/
theorem test_hold_across_wrap : (holding 0xFFFFFFF0 0x21).holdElapsed = false ∧ (holding 0xFFFFFFF0 0x22).holdElapsed = true := by
  decide

/-! ### The controller (CTL-*) -/

/-- CTL-1 and CTL-2. -/
theorem test_boot_primary : readNext (exec .boot { nodeA with env.clkMs := 7 })
    (fun s => (s.ctl.role, s.arb.busy, s.arb.target, s.link.lastTx, s.seq.phase)) = some (.primaryActive, true, 1, 7, 5) := by
  decide
theorem test_boot_secondary : readNext (exec .boot { nodeB with env.clkMs := 7 })
    (fun s => (s.ctl.role, lines s, s.ctl.bootTime, s.seq.phase)) =
      some (.standbyPassive, (false, false, 0, false), 7, 1) := by decide
/-- R123. -/
theorem test_tickStart : readNext (exec .tickStart { nodeB with env.clkMs := 2004 }) (fun s => (s.seq.t, s.seq.phase)) =
    some (2004, 2) := by decide
/-- R124. -/
theorem test_drain_byte : readNext (exec .drain { parsing 2 0 0 0 with env.rxQueue := [0x41] })
    (fun s => (s.link.capId, s.env.rxQueue, s.seq.phase)) = some (0x41, [], 2) := by decide
theorem test_drain_empty : readNext (exec .drain (parsing 2 0 0 0)) (·.seq.phase) = some 3 := by decide
/-- S-1 and S-2. -/
theorem test_sendPhase_not_due : readNext (exec .sendPhase { nodeA with seq.t := 499 })
    (fun s => (s.env.txQueue, s.seq.phase)) = some ([], 4) := by decide
theorem test_sendPhase_due : readNext (exec .sendPhase { nodeA with seq.t := 500 })
    (fun s => (s.env.txQueue, s.link.lastTx, s.seq.phase)) = some ([0xAA, 0x55, 0x41, 0x00, 0x4E], 500, 4) := by decide +kernel
/-- CTL-3 and CTL-4. -/
theorem test_evalStandby_waits : readNext (exec .evalStandby (standbyAt 2000)) (fun s => (s.ctl.role, s.seq.phase)) =
    some (.standbyPassive, 1) := by decide
theorem test_evalStandby_takes_over : readNext (exec .evalStandby (standbyAt 2001))
    (fun s => (s.ctl.role, s.ctl.failoverFlag, s.arb.target, s.arb.breakStart, s.seq.phase)) =
      some (.takingOver, true, 2, 2001, 5) := by decide
/-- CTL-4, CTL-14 through EVAL. -/
theorem test_eval_standby : readNext (exec .eval (standbyAt 2001)) (·.ctl.role) = some .takingOver := by decide
theorem test_eval_primary : readNext (exec .eval { nodeA with seq.phase := 4, seq.t := 100000 }) (·.ctl.role) =
    some .primaryActive := by decide
theorem test_evalPrimary : readNext (exec .evalPrimary (owning .a .eval)) (·.seq.phase) = some 1 := by decide
/-- CTL-10 and CTL-11. -/
theorem test_evalTakingover_waits : readNext (exec .evalTakingover (takenOver .takingOver 2070)) (·.ctl.role) =
    some .takingOver := by decide
theorem test_evalTakingover_ends : readNext (exec .evalTakingover (takenOver .takingOver 2071)) (·.ctl.role) =
    some .activeAfterTakeover := by decide
/-- CTL-13. -/
theorem test_evalActive : readNext (exec .evalActiveAfterTakeover (takenOver .activeAfterTakeover 9000))
    (fun s => (s.ctl.role, s.arb.owner, s.seq.phase)) = some (.activeAfterTakeover, 2, 1) := by decide
/-- CTL-15. -/
theorem test_failoverAck : readNext (exec .failoverAck (takenOver .takingOver 0)) (·.ctl.failoverFlag) = some false := by decide
/-- R156: a reset during a hold. -/
theorem test_reset_during_hold : readNext (exec .reset (holding 0 10)) (fun s => (lines s, s.seq.phase, s.env.resetPin)) =
    some ((false, false, 0, false), 0, true) := by decide
/-- R157. -/
theorem test_reset_on_reset : nextOf (exec .reset State.reset) = some { State.reset with env.resetPin := true } := by decide

/-! ### The status word (ST-1 to ST-4) -/

theorem test_status_secondary_boot : { nodeB with seq.phase := 1 }.statusWord = some 0x0004 := by decide
theorem test_status_primary : (⟨.a, .primaryActive, false, 0x00, false, false⟩ : Status).word = 0x0001 := by decide
theorem test_status_alive : (standbyAt 2000).statusWord = some 0x4134 := by decide
theorem test_status_takeover : ({ takenOver .takingOver 2071 with link.peerKnown := true, link.peerId := 0x41 }).statusWord =
    some 0x415A := by decide
theorem test_status_reserved_owner : { nodeB with arb.owner := 3 }.statusWord = none := by decide

/-! ### Moves -/

theorem test_configure_while_running : refusalOf (step { nodeB with moves := [.configure Config.suggested] }) =
    some .configurationWhileRunning := by decide
theorem test_receive_when_full :
    readNext (step { nodeB with cfg.rxDepth := some 1, env.rxQueue := [1], moves := [.receive 2] }) (·.env.rxQueue) =
      some [1] := by decide
/-- Under RESET a configuration takes W-bit durations, and a lower RX_DEPTH keeps the oldest byte (log entries 21, 22). -/
theorem test_configure_under_reset : readNext
    (step { inReset nodeB with env.rxQueue := [1, 2],
                               moves := [.configure { Config.suggested with bbm := 2 ^ 32 + 7, rxDepth := some 1 }] })
    (fun s => (s.cfg.bbm, s.env.rxQueue, s.ctl.role)) = some (7, [1], .primaryActive) := by decide
theorem test_transmit : readNext (step { nodeB with env.txQueue := [1, 2], moves := [.transmit] })
    (fun s => (s.env.txQueue, s.env.txWire)) = some ([2], [1]) := by decide

/-! ### Witnesses: a state that meets the hypotheses of each statement that has some -/

/-- A secondary running in a phase, with bytes waiting, the clock at `now`. -/
def running (p : Phase) (q : List Byte) (now : Time) : State :=
  { nodeB with link.peerKnown := true, link.peerId := 0x41, seq.phase := p.code, env.rxQueue := q, env.clkMs := now }

/-- A primary running in a phase. -/
def primaryIn (p : Phase) : State :=
  { nodeA with arb.owner := 1, arb.lineA := true, seq.phase := p.code }

theorem inv_reset : Inv State.reset := ⟨by decide, by decide, by decide, by decide,
  by decide, by decide, by decide⟩
theorem inv_nodeB : Inv nodeB := ⟨by decide, by decide, by decide, by decide,
  by decide, by decide, by decide⟩
theorem inv_standby : Inv (standbyAt 2001) := ⟨by decide, by decide, by decide, by decide,
  by decide, by decide, by decide⟩
theorem inv_holding : Inv (holding 200 250) := ⟨by decide, by decide, by decide, by decide,
  by decide, by decide, by decide⟩
theorem inv_holding_waits : Inv (holding 200 249) := ⟨by decide, by decide, by decide,
  by decide, by decide, by decide, by decide⟩
theorem inv_takenOver : Inv (takenOver .takingOver 2071) := ⟨by decide, by decide, by decide,
  by decide, by decide, by decide, by decide⟩
theorem inv_tick : Inv (running .tickStart [0xAA, 0x55, 0x41, 0x00, 0x4E] 2500) := ⟨by decide, by decide,
  by decide, by decide, by decide, by decide, by decide⟩
theorem inv_silent : Inv (running .tickStart [] 2001) := ⟨by decide, by decide, by decide,
  by decide, by decide, by decide, by decide⟩
theorem inv_primary : Inv (primaryIn .tickStart) := ⟨by decide, by decide, by decide,
  by decide, by decide, by decide, by decide⟩

theorem witness_EveryBitFlipInvalidatesAFrame : validFrame [0xAA, 0x55, 0x41, 0x00, 0x4E] = true ∧ 39 < 40 := by
  decide +kernel
theorem witness_EveryParserWordSelectsOneRow : (parsing 4 0x41 0x00 0).link.pstate < 5#3 := by decide
theorem witness_DecodeOfEncodeIsIdentity :
    Instr.wellFormedAt Config.suggested 0x41 0x00 (.capCrcOk 0x4E) = true ∧ encode (.capCrcOk 0x4E) = some (.word 0x44E) := by
  decide +kernel
theorem witness_DecodeOfEncodeIsIdentity_frame :
    Instr.wellFormedAt Config.suggested 0 0 (.hbFrame 0x41 0x00 0x4E) = true ∧
      encode (.hbFrame 0x41 0x00 0x4E) = some (.frame [0xAA, 0x55, 0x41, 0x00, 0x4E]) := by decide +kernel
theorem witness_EncodeOfDecodeIsIdentity : decodeFrame [0xAA, 0x55, 0x41, 0x00, 0x4E] = .ok (.hbFrame 0x41 0x00 0x4E) := by
  decide +kernel
theorem witness_StepRunsAPlacedParserWord : 16 ≠ 40 ∧ decodeTableWord 16 0x400 = some (.capCrcOk 0x00) ∧
    nodeB.arb.owner ≠ 3#2 ∧ nodeB.arb.target ≠ 3#2 := by decide +kernel
theorem witness_PlacedFrameRunsInFiveSteps : decodeTableWord 40 0xAA5541004E = some (.hbFrame 0x41 0x00 0x4E) ∧
    nodeB.arb.owner ≠ 3#2 ∧ nodeB.arb.target ≠ 3#2 := by decide +kernel
/-- A placed word and a placed frame run: the row's effect, and the accepted frame. -/
theorem test_placed_word_runs : readNext (step (nodeB.withFetchWord 16 0x255)) (fun s => (s.link.capId, s.link.pstate)) =
    some (0x55, 3) := by decide
theorem test_placed_frame_runs : readNext (runSteps 5 (nodeB.withFetchWord 40 0xAA5541004E)) (·.link.peerId) = some 0x41 := by
  decide +kernel
theorem witness_SyncBytesTakeTheirRows : (parsing 0 0 0 0).link.pstate = 0#3 ∧ (parsing 1 0 0 0).link.pstate = 1#3 ∧
    (0x54#8 ≠ 0xAA#8 ∧ 0x54#8 ≠ 0x55#8) := by decide
theorem witness_CapturedBytesTakeTheirRows : (parsing 2 0 0 0).link.pstate = 2#3 ∧ (parsing 3 0 0 0).link.pstate = 3#3 ∧
    (parsing 4 0x41 0x00 0).link.pstate = 4#3 ∧ 0x4E#8 = crc8 [0x41, 0x00] ∧ 0x4F#8 ≠ crc8 [0x41, 0x00] := by decide +kernel
theorem witness_ReservedCodesStop : 5#3 ≤ (parsing 5 0 0 0).link.pstate ∧ 5#3 ≤ (parsing 7 0 0 0).link.pstate ∧
    { parsing 7 0 0 0 with env.rxQueue := [0xAA] }.env.rxQueue = 0xAA :: [] ∧ (standbyAt 2001).ctl.role = .standbyPassive ∧
    { standbyAt 2001 with arb.owner := 3 }.arb.owner = 3#2 ∧ { standbyAt 2001 with arb.owner := 3 }.takeoverDue 2001 = true ∧
      { holding 200 250 with arb.target := 3 }.arb.target = 3#2 := by decide
theorem witness_StepFaultsOnAReservedCode :
    nodeB.env.resetPin = false ∧ nodeB.moves = [] ∧ 6#3 ≤ { nodeB with seq.phase := 6 }.seq.phase ∧
      (parsing 5 0 0 0).seq.phase ≠ 0#3 ∧ ¬CodesLegal (parsing 5 0 0 0) := by decide
theorem test_reserved_target_faults : faultOf (step { running .eval [] 0 with arb.target := 3 }) = some (.reservedTarget 3) := by
  decide
theorem witness_FiveBytesAcceptedExactlyWhenValid : (parsing 0 0 0 9).link.pstate = 0#3 ∧
    validFrame [0xAA, 0x55, 0x41, 0x00, 0x4E] = true ∧ validFrame [0xAA, 0x55, 0x41, 0x00, 0x4F] = false := by decide +kernel
theorem witness_FrameAcceptedFromEitherWaitState : (parsing 1 0 0 9).link.pstate = 1#3 ∧ (parsing 4 0 0 9).link.pstate < 5#3 := by
  decide
theorem witness_NoiseWithoutSyncPairKeepsWaiting : (parsing 0 0 0 9).link.pstate = 0#3 ∧ hasSyncPair [0x55, 0xAA] = false ∧
    hasSyncPair [0xAA, 0xAA, 0x55] = true := by decide
theorem witness_LinkNeitherReadsNorWrites : Machine.Instr.isLink (.consumeByte 0x00) = true := by decide
theorem witness_ParserReportsOnlyAcceptedFrames : (parsing 4 0x41 0x00 0).link.pstate < 5#3 ∧
    ¬((parsing 4 0x41 0x00 0).link.pstate = 4#3 ∧ 0x4F#8 = crc8 [0x41, 0x00]) := by decide +kernel
theorem witness_SendEmitsOneFrame : (0x42#8 = if nodeB.cfg.own = .a then nodeB.cfg.idA else nodeB.cfg.idB) ∧
    (0x41#8 = if nodeA.cfg.own = .a then nodeA.cfg.idA else nodeA.cfg.idB) := by decide
/-- The silence may be the largest there is, and the clock wraps. -/
theorem witness_LivenessIsExactAcrossAWrap : { standbyAt 0 with link.lastRx := 0xFFFFFF00 }.link.lastRx < 2 ^ 32 ∧
    2 ^ 32 - 1 < 2 ^ 32 ∧ (standbyAt 0).link.peerKnown = true ∧ nodeB.link.peerKnown = false := by decide
theorem witness_ClaimByTheOwnerDoesNothing : nodeB.arb.owner = 0#2 ∧ (owning .a .eval).arb.owner = 1#2 ∧
    (owning .b .eval).arb.owner = 2#2 := by decide
theorem witness_ClaimBeginBreaksBothLines : (owning .a .eval).arb.owner ≠ 2#2 ∧ (owning .a .eval).arb.owner ≠ 3#2 := by
  decide
theorem witness_HoldWaitsForTheClock : (holding 200 249).env.resetPin = false ∧ (holding 200 249).moves = [] ∧
    CodesLegal (holding 200 249) ∧ (holding 200 249).seq.phase = 5#3 ∧ ((249 : Int) - 200) % 2 ^ 32 < 50 := by decide
theorem witness_ClaimFinishMakesAndReturns : (holding 200 250).arb.target ≠ 3#2 ∧ (holding 200 250).env.resetPin = false ∧
    (holding 200 250).moves = [] ∧ CodesLegal (holding 200 250) ∧ (holding 200 250).seq.phase = 5#3 ∧
      (50 : Int) ≤ ((250 : Int) - 200) % 2 ^ 32 := by decide
theorem witness_ClaimToNoneEndsWithNoLine : (owning .a .eval).arb.owner = 1#2 ∧ (owning .b .eval).arb.owner = 2#2 ∧
    (owning .a .eval).link.pstate < 5#3 ∧ (owning .a .eval).env.resetPin = false ∧
      (owning .a .eval).cfg.bbm ≤ 50 ∧ 50 < 2 ^ (owning .a .eval).cfg.clockWidth := by decide
theorem witness_AnySequenceOfClaims : (owning .a .eval).arb.busy = false ∧ (owning .a .eval).arb.owner ≠ 3#2 ∧
    LinesMatchOwner (owning .a .eval) := by decide
/-- The three clauses: a line rises, the hold goes on, the hold is entered. -/
theorem witness_LineRisesOnlyAfterTheHold :
    readNext (step (holding 200 250)) (fun t => (t.arb.lineB, t.seq.phase)) = some (true, 1) ∧
      readNext (step (holding 200 249)) (·.seq.phase) = some 5 ∧ readNext (step (standbyAt 2001)) (·.seq.phase) = some 5 := by
  decide
theorem witness_BootWritesRegistersAndClaims : nodeA.cfg.own = .a ∧ nodeB.cfg.own = .b := by decide
theorem witness_StateAfterBootAndItsClaim : (inReset nodeA).env.resetPin = true ∧ ResetHolds (inReset nodeA) ∧
    ResetHolds (inReset nodeB) ∧ 0 = (inReset nodeA).env.clkMs % 2 ^ 32 ∧ nodeA.cfg.bbm ≤ 50 ∧ 50 < 2 ^ 32 := by decide
theorem witness_DrainConsumesOneByteOrEnds : (running .drain [] 0).env.rxQueue = [] ∧
    (running .drain [0xAA] 0).env.rxQueue = 0xAA :: [] ∧ (running .drain [0xAA] 0).link.pstate < 5#3 := by decide
theorem witness_SendPhaseSendsWhenDue : (500 : Int) ≤ (((500 : Nat) : Int) - (0 : Nat)) % 2 ^ 32 ∧
    (((499 : Nat) : Int) - (0 : Nat)) % 2 ^ 32 < 500 := by decide
theorem witness_EvalRunsTheRoleHeld : (primaryIn .eval).ctl.role = .primaryActive ∧
    (standbyAt 0).ctl.role = .standbyPassive ∧ (takenOver .takingOver 0).ctl.role = .takingOver ∧
      (takenOver .activeAfterTakeover 0).ctl.role = .activeAfterTakeover ∧ (standbyAt 0).arb.owner ≠ 3#2 := by decide
/-- CTL-3 to CTL-7: due and not due, with and without a frame, with and without the boot grace. -/
theorem witness_StandbyTakesOverExactlyWhenDue : (standbyAt 2001).takeoverDue 2001 = true ∧
    (standbyAt 2000).takeoverDue 2000 = false ∧ nodeB.takeoverDue 2001 = true ∧ nodeB.takeoverDue 2000 = false ∧
      { nodeB with cfg.bootGrace := false }.takeoverDue 10 = true ∧ (standbyAt 2001).arb.owner ≠ 2#2 ∧
        (standbyAt 2001).arb.owner ≠ 3#2 := by decide
theorem witness_TakingOverEndsAfterTheSettleDelay : (20 : Int) ≤ ((2071 : Int) - 2051) % 2 ^ 32 ∧
    ((2070 : Int) - 2051) % 2 ^ 32 < 20 := by decide
/-- The two role changes; `standbyAt` and `takenOver` are in EVAL, with no moves. -/
theorem witness_RoleTransitionsAreExactlyTwo : readNext (step (standbyAt 2001)) (·.ctl.role) = some .takingOver ∧
    readNext (step (takenOver .takingOver 2071)) (·.ctl.role) = some .activeAfterTakeover ∧
      (standbyAt 2001).seq.phase ≠ 0#3 ∧ (standbyAt 2001).moves = [] := by decide
theorem witness_EveryStepKeepsTheInvariant : Inv (standbyAt 2001) ∧ (nextOf (step (standbyAt 2001))).isSome = true :=
  ⟨inv_standby, by decide⟩
theorem witness_OwnershipIsKeptAfterATakeover : Inv (takenOver .takingOver 2071) ∧
    (takenOver .takingOver 2071).ctl.role = .takingOver ∧ (takenOver .takingOver 2071).arb.owner = 2#2 ∧
      .assertReset ∉ (takenOver .takingOver 2071).moves ∧ (nextOf (runSteps 3 (takenOver .takingOver 2071))).isSome = true :=
  ⟨inv_takenOver, by decide, by decide, by decide, by decide⟩
theorem witness_FailoverAckClearsTheFlag : nodeB.ctl.failoverFlag = false ∧
    (takenOver .takingOver 0).ctl.failoverFlag = true := by decide
theorem witness_CoreWaitsInResetThenBoots : (inReset nodeB).env.resetPin = true ∧ (inReset nodeB).moves = [] ∧
    ResetHolds (inReset nodeB) := by decide
theorem witness_StepRunsTheOperationOfThePhase : nodeB.env.resetPin = false ∧ CodesLegal nodeB ∧ nodeB.moves = [] ∧
    { nodeB with moves := [.core, .ack] }.moves.head? = some .core := by decide
theorem witness_EveryRunGoesOn : Inv State.reset ∧ ∀ c, Move.configure c ∉ State.reset.moves :=
  ⟨inv_reset, fun _ h => nomatch h⟩
theorem witness_TickTakesItsPhasesInOrder : Inv (running .tickStart [0xAA, 0x55, 0x41, 0x00, 0x4E] 2500) ∧
    (running .tickStart [0xAA, 0x55, 0x41, 0x00, 0x4E] 2500).env.resetPin = false ∧
      (running .tickStart [0xAA, 0x55, 0x41, 0x00, 0x4E] 2500).moves = [] ∧
        (running .tickStart [0xAA, 0x55, 0x41, 0x00, 0x4E] 2500).seq.phase = 1#3 :=
  ⟨inv_tick, by decide, by decide, by decide⟩
/-- Room for one byte more, and a full queue. -/
theorem witness_EnvironmentMovesWriteNoRegister :
    (∀ depth, { nodeB with cfg.rxDepth := some 1 }.cfg.rxDepth = some depth → 0 < depth) ∧
      { nodeB with cfg.rxDepth := some 1, env.rxQueue := [1] }.cfg.rxDepth = some 1 ∧ 1 ≤ [1].length :=
  ⟨fun _ h => by cases h; decide, rfl, by decide⟩
theorem witness_ConfigurationIsStaticWhileRunning : nodeB.env.resetPin = false ∧ (nextOf (step nodeB)).isSome = true := by
  decide
theorem witness_StatusWordHoldsTheStatusOutputs : nodeB.arb.owner ≠ 3#2 := by decide
theorem witness_FrameInATickPreventsItsTakeover : Inv (running .tickStart [0xAA, 0x55, 0x41, 0x00, 0x4E] 2500) ∧
    (running .tickStart [0xAA, 0x55, 0x41, 0x00, 0x4E] 2500).ctl.role = .standbyPassive ∧
      (running .tickStart [0xAA, 0x55, 0x41, 0x00, 0x4E] 2500).link.pstate = 0#3 ∧
        (running .tickStart [0xAA, 0x55, 0x41, 0x00, 0x4E] 2500).seq.phase = 1#3 ∧ 0x4E#8 = crc8 [0x41, 0x00] :=
  ⟨inv_tick, by decide, by decide, by decide, by decide +kernel⟩
theorem witness_SecondaryOwnsTheBusAfterPeerSilence : Inv (running .tickStart [] 2001) ∧
    (running .tickStart [] 2001).ctl.role = .standbyPassive ∧ (running .tickStart [] 2001).seq.phase = 1#3 ∧
      (running .tickStart [] 2001).link.peerKnown = true ∧ (2000 : Int) < ((2001 : Int) - 0) % 2 ^ 32 ∧
        (running .tickStart [] 2001).cfg.bbm ≤ 50 ∧ 50 < 2 ^ 32 :=
  ⟨inv_silent, by decide, by decide, by decide, by decide, by decide, by decide⟩
/-- The two-node system: a primary owning the bus and a secondary in StandbyPassive, joined. -/
theorem witness_EachNodeOfTheSystemStaysSafe :
    Inv (System.mk (primaryIn .tickStart) (running .tickStart [] 2001) [] [1]).nodeA ∧
      Inv (System.mk (primaryIn .tickStart) (running .tickStart [] 2001) [] [1]).nodeB ∧
        (System.mk (primaryIn .tickStart) (running .tickStart [] 2001) [] [1]).Paired :=
  ⟨inv_primary, inv_silent, by decide⟩
theorem test_system_delivers : (match sysStep (.deliver .a) (System.mk (primaryIn .tickStart) nodeB [] [1]) with
    | .next S => some (S.nodeA.env.rxQueue, S.bToA)
    | .fault _ => none
    | .refused _ => none) = some ([1], []) := by decide

end Sys2Proof.Tests
end

section
/-! PROOFS. The configuration is written by no operation, and by no step while `RESET` is released (R8): the frame of `cfg`,
from the named updates of the state up to `step`. -/

namespace Sys2Proof.Machine

/-! The updates the link, the arbitrator and the controller are written with. -/

@[simp] theorem State.sendFrame_cfg (s : State) : s.sendFrame.cfg = s.cfg := rfl
@[simp] theorem State.beginClaim_cfg (new : Owner) (s : State) : (s.beginClaim new).cfg = s.cfg := rfl
@[simp] theorem State.makeClaim_cfg (target : Owner) (s : State) : (s.makeClaim target).cfg = s.cfg :=
  State.setLine_cfg s target true
@[simp] theorem State.claimReturn_cfg (s : State) : s.claimReturn.cfg = s.cfg := by
  unfold State.claimReturn; split <;> rfl
@[simp] theorem State.bootRegisters_cfg (s : State) : s.bootRegisters.cfg = s.cfg := rfl

/-! The operations that branch, or that may fault. -/

/-- An outcome that is the next state `u` keeps the configuration if `u` does. -/
theorem cfg_eq_of_next {s u t : State} (h : (Host.Outcome.next u : StepOutcome) = .next t) (hu : u.cfg = s.cfg) :
    t.cfg = s.cfg := by
  cases h
  exact hu

theorem claim_cfg (new : Owner) (s t : State) (h : claim new s = .next t) : t.cfg = s.cfg := by
  obtain ⟨-, rfl⟩ | ⟨-, -, rfl⟩ := (claim_eq_next new s t).1 h
  · rfl
  · exact State.beginClaim_cfg new s

theorem execConsumeByte_cfg (b : Byte) (s t : State) (h : execConsumeByte b s = .next t) : t.cfg = s.cfg := by
  obtain ⟨ht, -⟩ := execConsumeByte_frame b s t h
  rw [ht]

theorem consumeAll_cfg (bs : List Byte) (s t : State) (h : consumeAll bs s = .next t) : t.cfg = s.cfg := by
  obtain ⟨ht, -⟩ := consumeAll_frame bs s t h
  rw [ht]

theorem execClaimNoop_cfg (new : Owner) (s t : State) (h : execClaimNoop new s = .next t) : t.cfg = s.cfg := by
  unfold execClaimNoop at h
  split at h
  · cases h
  · exact cfg_eq_of_next h rfl

theorem execClaimFinish_cfg (s t : State) (h : execClaimFinish s = .next t) : t.cfg = s.cfg := by
  unfold execClaimFinish at h
  split at h
  · cases h
  · exact cfg_eq_of_next h (by rw [State.claimReturn_cfg, State.makeClaim_cfg])

theorem execBoot_cfg (s t : State) (h : execBoot s = .next t) : t.cfg = s.cfg := by
  simp only [execBoot] at h
  split at h
  · exact (claim_cfg _ _ t h).trans s.bootRegisters_cfg
  · obtain ⟨m, hm, ht⟩ := (andThen_eq_next _ _ _).1 h
    exact cfg_eq_of_next ht ((claim_cfg .none s.bootRegisters m hm).trans s.bootRegisters_cfg)

theorem execDrain_cfg (s t : State) (h : execDrain s = .next t) : t.cfg = s.cfg := by
  unfold execDrain at h
  cases hq : s.env.rxQueue with
  | nil =>
    simp only [State.rxPop_nil s hq] at h
    exact cfg_eq_of_next h (s.setPhase_cfg .send)
  | cons b rest =>
    simp only [State.rxPop_cons s b rest hq] at h
    exact (execConsumeByte_cfg b _ t h).trans rfl

theorem execSendPhase_cfg (s t : State) (h : execSendPhase s = .next t) : t.cfg = s.cfg := by
  refine cfg_eq_of_next h ?_
  rw [State.setPhase_cfg]
  split
  · exact s.sendFrame_cfg
  · rfl

theorem execEvalStandby_cfg (s t : State) (h : execEvalStandby s = .next t) : t.cfg = s.cfg := by
  unfold execEvalStandby at h
  split at h
  · exact (claim_cfg _ _ t h).trans rfl
  · exact cfg_eq_of_next h (s.setPhase_cfg .tickStart)

theorem execEvalTakingover_cfg (s t : State) (h : execEvalTakingover s = .next t) : t.cfg = s.cfg := by
  refine cfg_eq_of_next h ?_
  rw [State.setPhase_cfg]
  split <;> rfl

theorem execEval_cfg (s t : State) (h : execEval s = .next t) : t.cfg = s.cfg := by
  unfold execEval at h
  split at h
  · exact cfg_eq_of_next h (s.setPhase_cfg .tickStart)
  · exact execEvalStandby_cfg s t h
  · exact execEvalTakingover_cfg s t h
  · exact cfg_eq_of_next h (s.setPhase_cfg .tickStart)

/-! Every operation, every move, every step. -/

/-- No operation writes the configuration, whatever the state it runs in. -/
theorem exec_cfg (i : Instr) (s t : State) (h : exec i s = .next t) : t.cfg = s.cfg := by
  cases i with
  | hbFrame id seq crc => exact consumeAll_cfg _ s t h
  | pstateRsv5 | pstateRsv67 => cases h
  | consumeByte b => exact execConsumeByte_cfg b s t h
  | claimNoop new => exact execClaimNoop_cfg new s t h
  | claimFinish => exact execClaimFinish_cfg s t h
  | claimReturn => exact cfg_eq_of_next h s.claimReturn_cfg
  | boot => exact execBoot_cfg s t h
  | drain => exact execDrain_cfg s t h
  | sendPhase => exact execSendPhase_cfg s t h
  | eval => exact execEval_cfg s t h
  | evalStandby => exact execEvalStandby_cfg s t h
  | evalTakingover => exact execEvalTakingover_cfg s t h
  | ws1Sync1 | ws1Other | ws2Sync2 | ws2Resync | ws2Other | capId | capSeq | capCrcOk | capCrcBad | crc8 | encode
  | send | sendDue | isPeerAlive | arbInitialize | claimBegin | claimHold | claimToNone | tickStart | evalPrimary
  | evalActiveAfterTakeover | failoverAck | reset => exact cfg_eq_of_next h rfl

theorem coreTurn_cfg (s t : State) (hr : s.env.resetPin = false) (h : coreTurn s = .next t) : t.cfg = s.cfg := by
  obtain ⟨p, -, hp⟩ := coreTurn_eq_next s t hr h
  exact exec_cfg (s.phaseInstr p) s t hp

/-- With `RESET` released the integrator has no move that sets the configuration (R148, R159). -/
theorem configureMove_of_running (c : Config) (s : State) (hr : s.env.resetPin = false) :
    configureMove c s = .refused .configurationWhileRunning := by
  simp [configureMove, hr]

theorem takeMove_cfg (m : Move) (s t : State) (hr : s.env.resetPin = false) (h : takeMove m s = .next t) :
    t.cfg = s.cfg := by
  cases m with
  | core => exact coreTurn_cfg s t hr h
  | clock d => exact cfg_eq_of_next h (s.clockAdvance_cfg d)
  | receive b => exact cfg_eq_of_next h (s.rxArrive_cfg b)
  | transmit => exact cfg_eq_of_next h s.txLeave_cfg
  | ack => exact exec_cfg .failoverAck s t h
  | assertReset => exact exec_cfg .reset s t h
  | releaseReset => exact cfg_eq_of_next h rfl
  | configure c =>
    have hc : configureMove c s = .next t := h
    rw [configureMove_of_running c s hr] at hc
    cases hc

/-- Settles O54: the configure move is the only writer of the configuration, and it is refused while the core runs. -/
theorem configurationIsStaticWhileRunning : Obligations.ConfigurationIsStaticWhileRunning := by
  intro s t hr h
  unfold step takeTurn at h
  split at h
  · exact coreTurn_cfg s t hr h
  · next m rest _ => exact takeMove_cfg m { s with moves := rest } t hr h

end Sys2Proof.Machine
end

section
/-! PROOFS. The moves of the environment, each as the step that takes it (R47, R49, R55, R58): the clock, an arriving byte with
room for it and without, a leaving byte. -/

namespace Sys2Proof.Machine

/-! The queues, each with the whole next state. -/

/-- A byte is taken in by an unbounded queue, or by one with room (R47). -/
theorem State.rxArrive_of_room (s : State) (b : Byte)
    (h : ∀ depth, s.cfg.rxDepth = some depth → s.env.rxQueue.length < depth) :
    s.rxArrive b = { s with env.rxQueue := s.env.rxQueue ++ [b] } := by
  unfold State.rxArrive
  split
  · rfl
  · next depth hd => exact if_pos (h depth hd)

/-- The arriving byte, not a queued one, is lost (R47). -/
theorem State.rxArrive_of_full (s : State) (b : Byte) (depth : Nat) (hd : s.cfg.rxDepth = some depth)
    (hl : depth ≤ s.env.rxQueue.length) : s.rxArrive b = s := by
  simp only [State.rxArrive, hd]
  exact if_neg (Nat.not_lt.mpr hl)

/-- With nothing to send both sides are `s` (R49). -/
theorem State.txLeave_eq (s : State) :
    s.txLeave =
      { s with env.txQueue := s.env.txQueue.tail, env.txWire := s.env.txWire ++ s.env.txQueue.take 1 } := by
  unfold State.txLeave
  split
  · next hq =>
    simp only [hq, List.tail_nil, List.take_nil, List.append_nil]
    rw [← hq]
  · next b rest hq => simp only [hq, List.tail_cons, List.take_succ_cons, List.take_zero]

/-! The steps. -/

/-- The first move is taken in the state without it. -/
theorem step_cons_moves (s : State) (m : Move) (rest : List Move) :
    step { s with moves := m :: rest } = takeMove m { s with moves := rest } := rfl

theorem step_clock (s : State) (rest : List Move) (d : Time) :
    step { s with moves := .clock d :: rest } =
      .next { s with moves := rest, env.clkMs := (s.env.clkMs + d) % 2 ^ s.cfg.clockWidth } := rfl

theorem step_receive (s : State) (rest : List Move) (b : Byte) :
    step { s with moves := .receive b :: rest } = .next ({ s with moves := rest }.rxArrive b) := rfl

theorem step_transmit (s : State) (rest : List Move) :
    step { s with moves := .transmit :: rest } =
      .next { s with moves := rest, env.txQueue := s.env.txQueue.tail
                     env.txWire := s.env.txWire ++ s.env.txQueue.take 1 } := by
  rw [step_cons_moves]
  exact congrArg Host.Outcome.next (State.txLeave_eq { s with moves := rest })

/-- Settles O53: the wire takes the first byte of the transmit queue and the queue keeps the others, so nothing pushed is
lost. -/
theorem environmentMovesWriteNoRegister : Obligations.EnvironmentMovesWriteNoRegister := by
  intro s rest d b
  refine ⟨step_clock s rest d, fun hroom => ?_, fun ⟨depth, hd, hl⟩ => ?_, _, _, step_transmit s rest, ?_, rfl⟩
  · rw [step_receive, State.rxArrive_of_room { s with moves := rest } b hroom]
  · rw [step_receive, State.rxArrive_of_full { s with moves := rest } b depth hd hl]
  · rw [List.append_assoc, ← List.drop_one, List.take_append_drop]

end Sys2Proof.Machine
end

section
/-! PROOFS. Putting every register at its reset value (R42, R155) gives a state that meets the invariant, whatever the registers
held before; right after reset the machine is such a state. -/

namespace Sys2Proof.Machine

/-! `State.resetRegisters`: each group of registers takes its reset values; nothing else changes. -/

@[simp] theorem State.resetRegisters_cfg (s : State) : s.resetRegisters.cfg = s.cfg := rfl
@[simp] theorem State.resetRegisters_env (s : State) : s.resetRegisters.env = s.env := rfl
@[simp] theorem State.resetRegisters_moves (s : State) : s.resetRegisters.moves = s.moves := rfl
@[simp] theorem State.resetRegisters_result (s : State) : s.resetRegisters.result = s.result := rfl
@[simp] theorem State.resetRegisters_link (s : State) : s.resetRegisters.link =
    { pstate := PState.waitSync1.code, capId := 0x00, capSeq := 0x00, peerKnown := false, peerId := 0x00, lastRx := 0,
      txSeq := 0x00, lastTx := 0 } := rfl
@[simp] theorem State.resetRegisters_arb (s : State) : s.resetRegisters.arb =
    { owner := Owner.none.code, lineA := false, lineB := false, busy := false, target := Owner.none.code,
      breakStart := 0 } := rfl
@[simp] theorem State.resetRegisters_ctl (s : State) : s.resetRegisters.ctl =
    { role := s.cfg.initialRole, takeoverStart := 0, bootTime := 0, failoverFlag := false } := rfl
@[simp] theorem State.resetRegisters_seq (s : State) : s.resetRegisters.seq =
    { phase := Phase.boot.code, t := 0, ret := .boot } := rfl

/-! Each part of the invariant. -/

/-- The role at reset is the one the identity fixes (R29, R120). -/
theorem initialRole_eq_primaryActive (c : Config) : c.initialRole = .primaryActive ↔ c.own = .a := by
  cases h : c.own <;> simp [Config.initialRole, PRIMARY, h]

theorem resetRegisters_codesLegal (s : State) : CodesLegal s.resetRegisters :=
  (by decide : PState.waitSync1.code < 5#3 ∧ Owner.none.code ≠ 3#2 ∧ Owner.none.code ≠ 3#2 ∧ Phase.boot.code < 6#3)

/-- Every time register is 0, so only the configuration and the clock need their range. -/
theorem resetRegisters_timesInRange (s : State) (hc : s.cfg.InRange) (hclk : s.env.clkMs < 2 ^ s.cfg.clockWidth) :
    TimesInRange s.resetRegisters :=
  have hpos := Nat.two_pow_pos s.cfg.clockWidth
  ⟨hc, hpos, hpos, hpos, hpos, hpos, hpos, hclk⟩

/-- Both lines are low, no owner is recorded and no claim is in progress. -/
theorem resetRegisters_linesMatchOwner (s : State) : LinesMatchOwner s.resetRegisters :=
  ⟨fun _ => by simp [Owner.code_injective], fun hbusy => nomatch hbusy⟩

theorem resetRegisters_phaseMatchesClaim (s : State) : PhaseMatchesClaim s.resetRegisters :=
  ⟨fun hphase => absurd hphase (by decide : Phase.boot.code ≠ Phase.claimHold.code), fun _ => ⟨rfl, rfl⟩⟩

/-- Before BOOT, and with no claim in progress, the role asks nothing of the ownership. -/
theorem resetRegisters_ownerMatchesRole (s : State) : OwnerMatchesRole s.resetRegisters :=
  ⟨fun hphase => absurd rfl hphase, fun hbusy => nomatch hbusy⟩

theorem resetRegisters_roleFitsIdentity (s : State) : RoleFitsIdentity s.resetRegisters :=
  initialRole_eq_primaryActive s.cfg

theorem resetRegisters_resetHolds (s : State) : ResetHolds s.resetRegisters := fun _ => rfl

/-- Of the invariant only what the reset values do not fix, the configuration, the clock and the receive queue, is asked of the
state before. -/
theorem resetRegisters_inv (s : State) (hc : s.cfg.InRange) (hclk : s.env.clkMs < 2 ^ s.cfg.clockWidth)
    (hrx : s.rxFits = true) : Inv s.resetRegisters :=
  ⟨resetRegisters_codesLegal s, resetRegisters_timesInRange s hc hclk, resetRegisters_linesMatchOwner s,
    resetRegisters_phaseMatchesClaim s, resetRegisters_ownerMatchesRole s, resetRegisters_roleFitsIdentity s,
    resetRegisters_resetHolds s, hrx⟩

/-- The machine right after reset holds the values that a reset gives (R42). -/
theorem reset_eq_resetRegisters : State.reset = State.reset.resetRegisters := rfl

theorem reset_inv : Inv State.reset := by
  rw [reset_eq_resetRegisters]
  exact resetRegisters_inv State.reset (by decide) (by decide) rfl

/-- Settles O45: the invariant holds as after every reset, and each register is read off the state. -/
theorem resetStateMeetsTheInvariant : Obligations.ResetStateMeetsTheInvariant :=
  ⟨reset_inv, rfl, rfl, rfl, rfl, rfl, rfl, rfl, rfl, rfl, rfl, rfl, rfl⟩

end Sys2Proof.Machine
end

section
/-! PROOFS. The invariant (R74, R113, R114, R134, R155): each of its parts is kept by a move that writes no register, by an
operation of a tick that leaves the arbitrator alone, by the break of a claim and by its finish; every step is one of these, or
a reset. -/

namespace Sys2Proof.Machine

/-! What the invariant says of the lines. -/

/-- The line an owner energizes, and its ownership, follow each other (R114). -/
theorem lines_of_owner_match (o : Owner) :
    (decide (o = .a) = true ↔ o.code = Owner.a.code) ∧ (decide (o = .b) = true ↔ o.code = Owner.b.code) := by
  simp only [decide_eq_true_eq, Owner.code_injective, and_self]

/-- The lines follow the one owner, and a claim in progress holds both low (R113, R114). -/
theorem LinesMatchOwner.notBothLines {s : State} (h : LinesMatchOwner s) : NotBothLines s := by
  obtain ⟨hidle, hbusy⟩ := h
  rintro ⟨ha, hb⟩
  cases hc : s.arb.busy with
  | true =>
    obtain ⟨hlow, -⟩ := hbusy hc
    exact Bool.false_ne_true (hlow.symm.trans ha)
  | false =>
    obtain ⟨hA, hB⟩ := hidle hc
    exact absurd ((hA.1 ha).symm.trans (hB.1 hb)) (by decide)

/-! Moves that write no register. -/

/-- `RESET` asserted fixes each group of registers, whatever the ports, the queues and the moves hold (R155). -/
theorem resetHolds_iff (s : State) :
    ResetHolds s ↔ (s.env.resetPin = true →
      { s.resetRegisters.link with lastTx := s.link.lastTx } = s.link ∧ s.resetRegisters.arb = s.arb ∧
        { s.resetRegisters.ctl with bootTime := s.ctl.bootTime } = s.ctl ∧ s.resetRegisters.seq = s.seq) := by
  obtain ⟨cfg, link, arb, ctl, seq, env, moves, result⟩ := s
  simp [ResetHolds, State.resetRegisters]

/-- A released `RESET` asks nothing of the registers. -/
theorem resetHolds_of_running {s : State} (h : s.env.resetPin = false) : ResetHolds s :=
  fun hpin => absurd (h.symm.trans hpin) Bool.false_ne_true

theorem resetHolds_of_same_registers {s t : State} (h : ResetHolds s) (hcfg : t.cfg = s.cfg) (hlink : t.link = s.link)
    (harb : t.arb = s.arb) (hctl : t.ctl = s.ctl) (hseq : t.seq = s.seq)
    (hpin : t.env.resetPin = true → s.env.resetPin = true) : ResetHolds t := by
  rw [resetHolds_iff] at h ⊢
  intro ht
  have hs := h (hpin ht)
  simpa only [State.resetRegisters_link, State.resetRegisters_arb, State.resetRegisters_ctl, State.resetRegisters_seq, hcfg,
    hlink, harb, hctl, hseq] using hs

/-- Of the ports and queues the invariant asks only the width of the clock and the bound of the receive queue. -/
theorem Inv.of_same_registers {s t : State} (h : Inv s) (hcfg : t.cfg = s.cfg) (hlink : t.link = s.link)
    (harb : t.arb = s.arb) (hctl : t.ctl = s.ctl) (hseq : t.seq = s.seq)
    (hpin : t.env.resetPin = true → s.env.resetPin = true) (hclk : t.env.clkMs < 2 ^ s.cfg.clockWidth)
    (hrx : t.rxFits = true) : Inv t := by
  obtain ⟨hcodes, ⟨hin, hlastRx, hlastTx, hbreak, htake, hboot, ht, -⟩, hlines, hphase, howner, hrole, hreset, -⟩ := h
  refine ⟨?_, ?_, ?_, ?_, ?_, ?_, resetHolds_of_same_registers hreset hcfg hlink harb hctl hseq hpin, hrx⟩
  · simpa only [CodesLegal, hlink, harb, hseq] using hcodes
  · simpa only [TimesInRange, hcfg, hlink, harb, hctl, hseq] using ⟨hin, hlastRx, hlastTx, hbreak, htake, hboot, ht, hclk⟩
  · simpa only [LinesMatchOwner, harb, hseq] using hlines
  · simpa only [PhaseMatchesClaim, harb, hseq] using hphase
  · simpa only [OwnerMatchesRole, hcfg, harb, hctl, hseq] using howner
  · simpa only [RoleFitsIdentity, hcfg, hctl] using hrole

theorem inv_with_moves (s : State) (moves : List Move) (h : Inv s) : Inv { s with moves := moves } := by
  have ⟨_, ⟨_, _, _, _, _, _, _, hclk⟩, _, _, _, _, _, hrx⟩ := h
  exact h.of_same_registers rfl rfl rfl rfl rfl id hclk hrx

theorem clockAdvance_inv (s : State) (d : Time) (h : Inv s) : Inv (s.clockAdvance d) := by
  have ⟨_, _, _, _, _, _, _, hrx⟩ := h
  exact h.of_same_registers rfl rfl rfl rfl rfl id (Nat.mod_lt _ (Nat.two_pow_pos _)) hrx

/-- An arriving byte touches the receive queue only (R47). -/
theorem rxArrive_env (s : State) (b : Byte) :
    (s.rxArrive b).env.clkMs = s.env.clkMs ∧ (s.rxArrive b).env.resetPin = s.env.resetPin := by
  unfold State.rxArrive
  split
  · exact ⟨rfl, rfl⟩
  · split <;> exact ⟨rfl, rfl⟩

theorem rxArrive_inv (s : State) (b : Byte) (h : Inv s) : Inv (s.rxArrive b) := by
  have ⟨_, ⟨_, _, _, _, _, _, _, hclk⟩, _, _, _, _, _, hrx⟩ := h
  obtain ⟨hc, hp⟩ := rxArrive_env s b
  exact h.of_same_registers (s.rxArrive_cfg b) (s.rxArrive_link b) (s.rxArrive_arb b) (s.rxArrive_ctl b) (s.rxArrive_seq b)
    (fun ht => hp ▸ ht) (hc ▸ hclk) (s.rxArrive_rxFits b hrx)

theorem txLeave_inv (s : State) (h : Inv s) : Inv s.txLeave := by
  have ⟨_, ⟨_, _, _, _, _, _, _, hclk⟩, _, _, _, _, _, hrx⟩ := h
  rw [State.txLeave_eq]
  exact h.of_same_registers rfl rfl rfl rfl rfl id hclk hrx

theorem releaseReset_inv (s : State) (h : Inv s) : Inv { s with env.resetPin := false } := by
  have ⟨_, ⟨_, _, _, _, _, _, _, hclk⟩, _, _, _, _, _, hrx⟩ := h
  exact h.of_same_registers rfl rfl rfl rfl rfl (fun ht => nomatch ht) hclk hrx

/-! Moves of the host and the integrator. -/

/-- Under `RESET` the flag is clear already, so that acknowledging it keeps the reset values. -/
theorem setFailoverFlag_false_resetHolds (s : State) (h : ResetHolds s) : ResetHolds (s.setFailoverFlag false) := by
  intro hpin
  have hflag : s.ctl.failoverFlag = false := (congrArg (fun u : State => u.ctl.failoverFlag) (h hpin)).symm
  have hsame : s.setFailoverFlag false = s := by
    unfold State.setFailoverFlag
    rw [← hflag]
  rw [hsame]
  exact h hpin

theorem setFailoverFlag_false_inv (s : State) (h : Inv s) : Inv (s.setFailoverFlag false) := by
  obtain ⟨hcodes, htimes, hlines, hphase, howner, hrole, hreset, hrx⟩ := h
  exact ⟨hcodes, htimes, hlines, hphase, howner, hrole, setFailoverFlag_false_resetHolds s hreset, hrx⟩

theorem execReset_inv (s t : State) (h : Inv s) (ht : execReset s = .next t) : Inv t := by
  obtain ⟨-, ⟨hcfg, -, -, -, -, -, -, hclk⟩, -, -, -, -, -, hrx⟩ := h
  cases ht
  exact resetRegisters_inv { s with env.resetPin := true } hcfg hclk hrx

/-- A new configuration takes W-bit durations, the clock follows its width and the queue its depth, so the reset values under it
meet the invariant whatever the old configuration was. -/
theorem configureMove_inv (c : Config) (s t : State) (ht : configureMove c s = .next t) : Inv t := by
  unfold configureMove at ht
  split at ht
  · cases ht
    refine resetRegisters_inv _ ?_ ?_ (State.rxTrim_rxFits _)
    · rw [State.rxTrim_cfg, State.clockAdvance_cfg]
      exact c.narrow_inRange
    · rw [State.rxTrim_cfg, State.rxTrim_env_clkMs]
      exact Nat.mod_lt _ (Nat.two_pow_pos _)
  · cases ht

/-! Operations of a tick that leave the arbitrator alone. -/

/-- The phases between BOOT and the hold of a claim: those of a tick (R118). -/
def InTick (s : State) : Prop :=
  s.seq.phase ≠ Phase.boot.code ∧ s.seq.phase ≠ Phase.claimHold.code ∧ s.seq.phase < 6#3

theorem inTick_of_phase {s : State} {p : Phase} (h : s.seq.phase = p.code) (hboot : p ≠ .boot) (hhold : p ≠ .claimHold) :
    InTick s := by
  unfold InTick
  rw [h]
  cases p with
  | boot => exact absurd rfl hboot
  | claimHold => exact absurd rfl hhold
  | tickStart | drain | send | eval => decide

/-- No claim is in progress in a tick (R114). -/
theorem InTick.not_busy {s : State} (h : InTick s) (hlines : LinesMatchOwner s) : s.arb.busy = false := by
  obtain ⟨-, hhold, -⟩ := h
  cases hb : s.arb.busy with
  | false => rfl
  | true =>
    obtain ⟨-, -, -, hphase⟩ := hlines.2 hb
    exact absurd hphase hhold

/-- What an operation of a tick that begins no claim leaves in place (R117, R133). -/
structure KeepsOwnership (s t : State) : Prop where
  cfg : t.cfg = s.cfg
  arb : t.arb = s.arb
  resetPin : t.env.resetPin = s.env.resetPin
  primary : t.ctl.role = .primaryActive ↔ s.ctl.role = .primaryActive
  standby : t.ctl.role = .standbyPassive ↔ s.ctl.role = .standbyPassive
  inTick : InTick t

/-- The owner of the state before stays the one the role asks for; the parser state, the times and the receive queue are the
operation's own. -/
theorem KeepsOwnership.inv {s t : State} (hk : KeepsOwnership s t) (h : Inv s) (hrun : s.env.resetPin = false)
    (hs : InTick s) (hpstate : t.link.pstate < 5#3) (htimes : TimesInRange t) (hrx : t.rxFits = true) : Inv t := by
  obtain ⟨hcfg, harb, hpin, hprimary, hstandby, ht⟩ := hk
  obtain ⟨⟨-, hown3, htgt3, -⟩, -, hlines, -, ⟨howner, -⟩, hrole, -, -⟩ := h
  have hbusy : t.arb.busy = false := harb ▸ hs.not_busy hlines
  obtain ⟨htboot, hthold, htphase⟩ := ht
  refine ⟨⟨hpstate, harb ▸ hown3, harb ▸ htgt3, htphase⟩, htimes, ⟨fun _ => ?_, ?_⟩, ⟨?_, ?_⟩, ⟨fun _ _ => ?_, ?_⟩, ?_,
    resetHolds_of_running (hpin.trans hrun), hrx⟩
  · rw [harb]; exact hlines.1 (hs.not_busy hlines)
  · exact fun hb => absurd (hbusy.symm.trans hb) Bool.false_ne_true
  · exact fun hp => absurd hp hthold
  · exact fun hp => absurd hp htboot
  · rw [harb, hcfg, ne_eq, hstandby]; exact howner hs.1 (hs.not_busy hlines)
  · exact fun hb => absurd (hbusy.symm.trans hb) Bool.false_ne_true
  · rw [RoleFitsIdentity, hprimary, hcfg]; exact hrole

/-- An operation of a tick that ends in a phase of the tick and writes nothing else. -/
theorem setPhase_inv (s : State) (p : Phase) (h : Inv s) (hrun : s.env.resetPin = false) (hs : InTick s)
    (hboot : p ≠ .boot) (hhold : p ≠ .claimHold) : Inv (s.setPhase p) := by
  have ⟨⟨hpstate, _⟩, htimes, _, _, _, _, _, hrx⟩ := h
  have hk : KeepsOwnership s (s.setPhase p) := ⟨rfl, rfl, rfl, Iff.rfl, Iff.rfl, inTick_of_phase rfl hboot hhold⟩
  exact hk.inv h hrun hs hpstate htimes hrx

theorem execTickStart_inv (s t : State) (h : Inv s) (hrun : s.env.resetPin = false) (hs : InTick s)
    (ht : execTickStart s = .next t) : Inv t := by
  have ⟨⟨hpstate, _⟩, ⟨hcfg, hlastRx, hlastTx, hbreak, htake, hboot, _, hclk⟩, _, _, _, _, _, hrx⟩ := h
  cases ht
  have hk : KeepsOwnership s ({ s with seq.t := s.now }.setPhase .drain) :=
    ⟨rfl, rfl, rfl, Iff.rfl, Iff.rfl, inTick_of_phase (p := .drain) rfl (by decide) (by decide)⟩
  exact hk.inv h hrun hs hpstate ⟨hcfg, hlastRx, hlastTx, hbreak, htake, hboot, s.now_lt, hclk⟩ hrx

/-- A consumed byte keeps the invariant: an accepted frame records the tick sample, which is W bits wide (R95). -/
theorem execConsumeByte_inv (b : Byte) (s t : State) (h : Inv s) (hrun : s.env.resetPin = false) (hs : InTick s)
    (ht : execConsumeByte b s = .next t) : Inv t := by
  have ⟨_, ⟨hcfg, hlastRx, hlastTx, hbreak, htake, hboot, hsample, hclk⟩, _, _, _, _, _, hrx⟩ := h
  obtain ⟨-, -, -, hpstate⟩ := execConsumeByte_frame b s t ht
  obtain ⟨p, i, q, rfl⟩ | ⟨-, -, rfl⟩ := execConsumeByte_eq_next b s t ht
  · have hk : KeepsOwnership s { s with link.pstate := p.code, link.capId := i, link.capSeq := q } :=
      ⟨rfl, rfl, rfl, Iff.rfl, Iff.rfl, hs⟩
    exact hk.inv h hrun hs hpstate ⟨hcfg, hlastRx, hlastTx, hbreak, htake, hboot, hsample, hclk⟩ hrx
  · have hk : KeepsOwnership s (s.acceptFrame.setPState .waitSync1) := ⟨rfl, rfl, rfl, Iff.rfl, Iff.rfl, hs⟩
    exact hk.inv h hrun hs hpstate ⟨hcfg, hsample, hlastTx, hbreak, htake, hboot, hsample, hclk⟩ hrx

/-- A popped byte leaves a shorter receive queue. -/
theorem popped_inv (s : State) (b : Byte) (rest : List Byte) (hq : s.env.rxQueue = b :: rest) (h : Inv s) :
    Inv { s with env.rxQueue := rest } := by
  have ⟨_, ⟨_, _, _, _, _, _, _, hclk⟩, _, _, _, _, _, hrx⟩ := h
  refine h.of_same_registers rfl rfl rfl rfl rfl id hclk (State.rxFits_of_length_le s _ rfl ?_ hrx)
  rw [hq]
  exact Nat.le_succ _

theorem execDrain_inv (s t : State) (h : Inv s) (hrun : s.env.resetPin = false) (hs : InTick s)
    (ht : execDrain s = .next t) : Inv t := by
  unfold execDrain at ht
  cases hq : s.env.rxQueue with
  | nil =>
    rw [State.rxPop_nil s hq] at ht
    cases ht
    exact setPhase_inv s .send h hrun hs (by decide) (by decide)
  | cons b rest =>
    rw [State.rxPop_cons s b rest hq] at ht
    exact execConsumeByte_inv b { s with env.rxQueue := rest } t (popped_inv s b rest hq h) hrun hs ht

/-- A sent frame records the tick sample and leaves the arbitrator, the controller and the phase alone (R101). -/
theorem sendFrame_inv (s : State) (h : Inv s) (hrun : s.env.resetPin = false) (hs : InTick s) : Inv s.sendFrame := by
  have ⟨⟨hpstate, _⟩, ⟨hcfg, hlastRx, _, hbreak, htake, hboot, hsample, hclk⟩, _, _, _, _, _, hrx⟩ := h
  have hk : KeepsOwnership s s.sendFrame := ⟨rfl, rfl, rfl, Iff.rfl, Iff.rfl, hs⟩
  exact hk.inv h hrun hs hpstate ⟨hcfg, hlastRx, hsample, hbreak, htake, hboot, hsample, hclk⟩ hrx

theorem execSendPhase_inv (s t : State) (h : Inv s) (hrun : s.env.resetPin = false) (hs : InTick s)
    (ht : execSendPhase s = .next t) : Inv t := by
  unfold execSendPhase at ht
  cases ht
  split
  · exact setPhase_inv s.sendFrame .eval (sendFrame_inv s h hrun hs) hrun hs (by decide) (by decide)
  · exact setPhase_inv s .eval h hrun hs (by decide) (by decide)

/-- The end of the settle delay keeps the ownership, which both roles after a takeover have (R130, R134). -/
theorem execEvalTakingover_inv (s t : State) (h : Inv s) (hrun : s.env.resetPin = false) (hs : InTick s)
    (hrole : s.ctl.role = .takingOver) (ht : execEvalTakingover s = .next t) : Inv t := by
  unfold execEvalTakingover at ht
  cases ht
  split
  · have ⟨⟨hpstate, _⟩, htimes, _, _, _, _, _, hrx⟩ := h
    have hk : KeepsOwnership s { s with ctl.role := .activeAfterTakeover } :=
      ⟨rfl, rfl, rfl, by simp [hrole], by simp [hrole], hs⟩
    exact setPhase_inv _ .tickStart (hk.inv h hrun hs hpstate htimes hrx) hrun hs (by decide) (by decide)
  · exact setPhase_inv s .tickStart h hrun hs (by decide) (by decide)

/-! The break of a claim and its finish. -/

theorem self_code_ne_none (c : Config) : c.self.code ≠ Owner.none.code := by
  unfold Config.self
  cases c.own <;> decide

/-- The break of this node's claim for itself (R108): both lines go low, and the hold starts at a sample of the clock. Nothing is
asked of the arbitrator before it, so that it serves BOOT as well. -/
theorem beginClaim_self_inv (s : State) (hrun : s.env.resetPin = false) (hpstate : s.link.pstate < 5#3)
    (htimes : TimesInRange s) (hrole : RoleFitsIdentity s) (hrx : s.rxFits = true)
    (hfor : s.ctl.role = .primaryActive ∧ s.seq.ret = .boot ∨ s.ctl.role = .takingOver ∧ s.seq.ret = .takeover) :
    Inv (s.beginClaim s.cfg.self) := by
  obtain ⟨hcfg, hlastRx, hlastTx, -, htake, hboot, hsample, hclk⟩ := htimes
  have hself : s.cfg.self.code ≠ 3#2 := by cases s.cfg.self <;> decide
  refine ⟨⟨hpstate, ?_, hself, ?_⟩, ⟨hcfg, hlastRx, hlastTx, s.now_lt, htake, hboot, hsample, hclk⟩,
    ⟨fun hb => (nomatch hb), fun _ => ⟨rfl, rfl, rfl, rfl⟩⟩, ⟨fun _ => rfl, fun hp => ?_⟩,
    ⟨fun _ hb => (nomatch hb), fun _ => ⟨rfl, hfor⟩⟩, hrole, resetHolds_of_running hrun, hrx⟩
  · exact (by decide : Owner.none.code ≠ 3#2)
  · exact (by decide : Phase.claimHold.code < 6#3)
  · exact absurd hp (by decide : Phase.claimHold.code ≠ Phase.boot.code)

/-- A node in StandbyPassive owns nothing, so a due takeover begins the claim for itself (R129, R134). -/
theorem execEvalStandby_inv (s t : State) (h : Inv s) (hrun : s.env.resetPin = false) (hs : InTick s)
    (hstandby : s.ctl.role = .standbyPassive) (ht : execEvalStandby s = .next t) : Inv t := by
  unfold execEvalStandby at ht
  split at ht
  · obtain ⟨⟨hpstate, -⟩, htimes, hlines, -, ⟨howner, -⟩, hrole, -, hrx⟩ := h
    have hnone : s.arb.owner = Owner.none.code := (howner hs.1 (hs.not_busy hlines)).1 hstandby
    obtain ⟨hown, -⟩ | ⟨-, -, rfl⟩ := (claim_eq_next _ _ t).1 ht
    · exact absurd (hown.symm.trans hnone) (self_code_ne_none s.cfg)
    · have hsecondary : ¬s.cfg.own = .a := fun ha => absurd (hstandby.symm.trans (hrole.2 ha)) (by decide)
      exact beginClaim_self_inv ({ s with ctl.role := .takingOver, seq.ret := .takeover }.setFailoverFlag true) hrun hpstate
        htimes ⟨fun hp => absurd hp (by decide : Role.takingOver ≠ Role.primaryActive), fun ha => absurd ha hsecondary⟩ hrx
        (.inr ⟨rfl, rfl⟩)
  · cases ht
    exact setPhase_inv s .tickStart h hrun hs (by decide) (by decide)

theorem execEval_inv (s t : State) (h : Inv s) (hrun : s.env.resetPin = false) (hs : InTick s)
    (ht : execEval s = .next t) : Inv t := by
  unfold execEval at ht
  split at ht
  · cases ht
    exact setPhase_inv s .tickStart h hrun hs (by decide) (by decide)
  · next hrole => exact execEvalStandby_inv s t h hrun hs hrole ht
  · next hrole => exact execEvalTakingover_inv s t h hrun hs hrole ht
  · cases ht
    exact setPhase_inv s .tickStart h hrun hs (by decide) (by decide)

/-- The times BOOT leaves are W bits wide: the boot time and the send time are a sample of the clock (R121). -/
theorem bootRegisters_timesInRange (s : State) (h : TimesInRange s) : TimesInRange s.bootRegisters := by
  obtain ⟨hcfg, hlastRx, -, hbreak, htake, -, hsample, hclk⟩ := h
  exact ⟨hcfg, hlastRx, s.now_lt, hbreak, htake, s.now_lt, hsample, hclk⟩

/-- The secondary after BOOT: no owner, no line, no claim, and the first tick next (R121). -/
theorem bootRegisters_standby_inv (s : State) (hrun : s.env.resetPin = false) (htimes : TimesInRange s)
    (hrx : s.rxFits = true) (hrole : s.bootRegisters.ctl.role ≠ .primaryActive) :
    Inv (s.bootRegisters.setPhase .tickStart) := by
  have hstandby : s.bootRegisters.ctl.role = .standbyPassive := by
    have hinit : s.bootRegisters.ctl.role = s.cfg.initialRole := rfl
    rw [hinit] at hrole ⊢
    cases hown : s.cfg.own with
    | a => exact absurd ((initialRole_eq_primaryActive s.cfg).2 hown) hrole
    | b => simp [Config.initialRole, PRIMARY, hown]
  refine ⟨(by decide : PState.waitSync1.code < 5#3 ∧ Owner.none.code ≠ 3#2 ∧ Owner.none.code ≠ 3#2 ∧
      Phase.tickStart.code < 6#3), bootRegisters_timesInRange s htimes,
    ⟨fun _ => lines_of_owner_match .none, fun hb => nomatch hb⟩,
    ⟨fun hp => absurd hp (by decide : Phase.tickStart.code ≠ Phase.claimHold.code), fun _ => ⟨rfl, rfl⟩⟩,
    ⟨fun _ _ => ⟨fun _ => rfl, fun hn => absurd hstandby hn⟩, fun hb => nomatch hb⟩,
    initialRole_eq_primaryActive s.cfg, resetHolds_of_running hrun, hrx⟩

/-- BOOT writes every register the invariant speaks of but the sample times, so that it asks only their range (R121). -/
theorem execBoot_inv (s t : State) (hrun : s.env.resetPin = false) (htimes : TimesInRange s) (hrx : s.rxFits = true)
    (ht : execBoot s = .next t) : Inv t := by
  simp only [execBoot] at ht
  split at ht
  · next hprimary =>
    obtain ⟨hown, -⟩ | ⟨-, -, rfl⟩ := (claim_eq_next _ _ t).1 ht
    · exact absurd hown.symm (self_code_ne_none s.cfg)
    · exact beginClaim_self_inv { s.bootRegisters with seq.ret := .boot } hrun (by decide : PState.waitSync1.code < 5#3)
        (bootRegisters_timesInRange s htimes) (initialRole_eq_primaryActive s.cfg) hrx (.inl ⟨hprimary, rfl⟩)
  · next hsecondary =>
    obtain ⟨m, hm, hmt⟩ := (andThen_eq_next _ _ _).1 ht
    cases hmt
    obtain ⟨-, rfl⟩ | ⟨hown, -⟩ := (claim_eq_next .none s.bootRegisters m).1 hm
    · exact bootRegisters_standby_inv s hrun htimes hrx hsecondary
    · exact absurd rfl hown

/-- What CLAIM_RETURN writes: the phase, and the start of the settle delay after a takeover (R122). -/
theorem claimReturn_eq (s : State) : ∃ start, (start = s.ctl.takeoverStart ∨ start = s.now) ∧
    s.claimReturn = { s with ctl.takeoverStart := start }.setPhase .tickStart := by
  unfold State.claimReturn
  split
  · exact ⟨s.now, .inr rfl, rfl⟩
  · exact ⟨s.ctl.takeoverStart, .inl rfl, rfl⟩

/-- The finish of a claim, from a hold with both lines low: the target's line, and no other, is energized (R110). -/
theorem makeClaim_of_lines_low (s : State) (o : Owner) (ha : s.arb.lineA = false) (hb : s.arb.lineB = false) :
    s.makeClaim o =
      { s with arb.owner := o.code, arb.lineA := decide (o = .a), arb.lineB := decide (o = .b), arb.busy := false } := by
  obtain ⟨cfg, link, ⟨owner, lineA, lineB, busy, target, breakStart⟩, ctl, seq, env, moves, result⟩ := s
  cases ha
  cases hb
  cases o <;> rfl

/-- The finish of a claim keeps the invariant: the claim in progress is this node's own, for a role that owns the bus (R110,
R112, R134). -/
theorem execClaimFinish_inv (s t : State) (h : Inv s) (hrun : s.env.resetPin = false)
    (hhold : s.seq.phase = Phase.claimHold.code) (ht : execClaimFinish s = .next t) : Inv t := by
  obtain ⟨⟨hpstate, -, htgt3, -⟩, ⟨hcfg, hlastRx, hlastTx, hbreak, htake, hboot, hsample, hclk⟩, ⟨-, hlines⟩, ⟨hbusy, -⟩,
    ⟨-, hclaim⟩, hrole, -, hrx⟩ := h
  obtain ⟨ha, hb, -, -⟩ := hlines (hbusy hhold)
  obtain ⟨htarget, hfor⟩ := hclaim (hbusy hhold)
  have hself : s.cfg.self.code ≠ 3#2 := htarget ▸ htgt3
  have hnotStandby : s.ctl.role ≠ .standbyPassive := by
    obtain ⟨hr, -⟩ | ⟨hr, -⟩ := hfor <;> rw [hr] <;> decide
  unfold execClaimFinish at ht
  rw [(Owner.ofCode_eq_some _ _).2 htarget] at ht
  cases ht
  rw [makeClaim_of_lines_low s _ ha hb]
  obtain ⟨start, hstart, heq⟩ := claimReturn_eq { s with
    arb.owner := s.cfg.self.code, arb.lineA := decide (s.cfg.self = .a), arb.lineB := decide (s.cfg.self = .b)
    arb.busy := false }
  have hstart : start < 2 ^ s.cfg.clockWidth := by
    obtain rfl | rfl := hstart
    · exact htake
    · exact s.now_lt
  rw [heq]
  exact ⟨⟨hpstate, hself, htgt3, (by decide : Phase.tickStart.code < 6#3)⟩,
    ⟨hcfg, hlastRx, hlastTx, hbreak, hstart, hboot, hsample, hclk⟩,
    ⟨fun _ => lines_of_owner_match s.cfg.self, fun hb' => nomatch hb'⟩,
    ⟨fun hp => absurd hp (by decide : Phase.tickStart.code ≠ Phase.claimHold.code),
      fun hp => absurd hp (by decide : Phase.tickStart.code ≠ Phase.boot.code)⟩,
    ⟨fun _ _ => ⟨fun hr => absurd hr hnotStandby, fun _ => rfl⟩, fun hb' => nomatch hb'⟩,
    hrole, resetHolds_of_running hrun, hrx⟩

/-! Every turn, every move, every step. -/

/-- The core's turn runs the operation of its phase, each of which keeps the invariant; under `RESET` it waits. -/
theorem coreTurn_inv (s t : State) (h : Inv s) (ht : coreTurn s = .next t) : Inv t := by
  cases hpin : s.env.resetPin with
  | true =>
    unfold coreTurn at ht
    rw [if_pos hpin] at ht
    cases ht
    exact h
  | false =>
    obtain ⟨p, hp, hexec⟩ := coreTurn_eq_next s t hpin ht
    cases p with
    | boot =>
      obtain ⟨-, htimes, -, -, -, -, -, hrx⟩ := h
      exact execBoot_inv s t hpin htimes hrx hexec
    | tickStart => exact execTickStart_inv s t h hpin (inTick_of_phase hp (by decide) (by decide)) hexec
    | drain => exact execDrain_inv s t h hpin (inTick_of_phase hp (by decide) (by decide)) hexec
    | send => exact execSendPhase_inv s t h hpin (inTick_of_phase hp (by decide) (by decide)) hexec
    | eval => exact execEval_inv s t h hpin (inTick_of_phase hp (by decide) (by decide)) hexec
    | claimHold =>
      simp only [State.phaseInstr] at hexec
      split at hexec
      · exact execClaimFinish_inv s t h hpin hp hexec
      · cases hexec
        exact h

theorem takeMove_inv (m : Move) (s t : State) (h : Inv s) (ht : takeMove m s = .next t) : Inv t := by
  cases m with
  | core => exact coreTurn_inv s t h ht
  | clock d => cases ht; exact clockAdvance_inv s d h
  | receive b => cases ht; exact rxArrive_inv s b h
  | transmit => cases ht; exact txLeave_inv s h
  | ack => cases ht; exact setFailoverFlag_false_inv s h
  | assertReset => exact execReset_inv s t h ht
  | releaseReset => cases ht; exact releaseReset_inv s h
  | configure c => exact configureMove_inv c s t ht

theorem step_inv (s t : State) (h : Inv s) (ht : step s = .next t) : Inv t := by
  unfold step takeTurn at ht
  split at ht
  · exact coreTurn_inv s t h ht
  · next m rest _ => exact takeMove_inv m { s with moves := rest } t (inv_with_moves s rest h) ht

/-- Settles O44: a step is one move, and each move keeps every part of the invariant; the lines are never energized together
because they follow the one owner. -/
theorem everyStepKeepsTheInvariant : Obligations.EveryStepKeepsTheInvariant := by
  intro s t h ht
  have hinv := step_inv s t h ht
  have ⟨_, _, hlines, _⟩ := hinv
  exact ⟨hinv, hlines.notBothLines⟩

end Sys2Proof.Machine
end

section
/-! PROOFS. The parser word (R69) and the frame (R63): the rows as a relation between a state code, a byte and a row, which the
decoder computes and of which the encoder is the inverse; then the printed table, whose lines select by that relation. -/

namespace Sys2Proof

/-! The fields of a parser word. -/

/-- A parser word determines its state code and its byte (R69). -/
theorem parserWord_inj (p q : BitVec 3) (b c : Byte) : parserWord p b = parserWord q c ↔ p = q ∧ b = c := by
  refine ⟨fun h => ⟨?_, ?_⟩, fun ⟨hp, hb⟩ => hp ▸ hb ▸ rfl⟩
  · simpa only [wordState_parserWord] using congrArg wordState h
  · simpa only [wordByte_parserWord] using congrArg wordByte h

/-- Masking a parser word masks each field. -/
theorem parserWord_and (p q : BitVec 3) (b c : Byte) :
    parserWord p b &&& parserWord q c = parserWord (p &&& q) (b &&& c) :=
  BitVec.and_append

/-- `PW[8]` is the lowest bit of the state code. -/
theorem extractLsb'_state_parserWord (p : BitVec 3) (b : Byte) :
    (parserWord p b).extractLsb' 8 1 = p.extractLsb' 0 1 := by
  unfold parserWord
  exact BitVec.extractLsb'_append_eq_of_le (by decide)

theorem lowBit_append (low : BitVec 1) : (0b11#2 ++ low).extractLsb' 0 1 = low := by
  revert low; decide

/-! The rows. -/

/-- The rows of R69 by state code and byte: row `r` is the row of the word that code `p` and byte `b` make, where `m` says
whether the byte is the checksum of the captured payload. -/
inductive RowSelected (m : Bool) : BitVec 3 → Byte → Row → Prop where
  | ws1Sync1 : RowSelected m 0 SYNC1 .ws1Sync1
  | ws1Other {b : Byte} (h : b ≠ SYNC1) : RowSelected m 0 b .ws1Other
  | ws2Sync2 : RowSelected m 1 SYNC2 .ws2Sync2
  | ws2Resync : RowSelected m 1 SYNC1 .ws2Resync
  | ws2Other {b : Byte} (h2 : b ≠ SYNC2) (h1 : b ≠ SYNC1) : RowSelected m 1 b .ws2Other
  | capId {b : Byte} : RowSelected m 2 b .capId
  | capSeq {b : Byte} : RowSelected m 3 b .capSeq
  | capCrcOk {b : Byte} (h : m = true) : RowSelected m 4 b .capCrcOk
  | capCrcBad {b : Byte} (h : m = false) : RowSelected m 4 b .capCrcBad
  | pstateRsv5 {b : Byte} : RowSelected m 5 b .pstateRsv5
  | pstateRsv67 (low : BitVec 1) {b : Byte} : RowSelected m (0b11#2 ++ low) b .pstateRsv67

/-- The state codes, the last two by their lowest bit (R70). -/
theorem stateCode_cases (p : BitVec 3) :
    p = 0 ∨ p = 1 ∨ p = 2 ∨ p = 3 ∨ p = 4 ∨ p = 5 ∨ ∃ low : BitVec 1, p = 0b11#2 ++ low := by
  revert p; decide

/-- The decoder's row is selected. -/
theorem decodeRow_selected (m : Bool) (p : BitVec 3) (b : Byte) : RowSelected m p b (decodeRow m (parserWord p b)) := by
  rw [decodeRow_parserWord]
  obtain rfl | rfl | rfl | rfl | rfl | rfl | ⟨low, rfl⟩ := stateCode_cases p
  · by_cases h1 : b = SYNC1
    · subst h1; exact .ws1Sync1
    · simpa [h1] using RowSelected.ws1Other h1
  · by_cases h2 : b = SYNC2
    · subst h2; exact .ws2Sync2
    · by_cases h1 : b = SYNC1
      · subst h1; exact .ws2Resync
      · simpa [h1, h2] using RowSelected.ws2Other h2 h1
  · exact .capId
  · exact .capSeq
  · cases m with
    | true => exact .capCrcOk rfl
    | false => exact .capCrcBad rfl
  · exact .pstateRsv5
  · obtain rfl | rfl : low = 0 ∨ low = 1 := by revert low; decide
    · exact .pstateRsv67 0
    · exact .pstateRsv67 1

/-- No other row is. -/
theorem decodeRow_of_selected {m : Bool} {p : BitVec 3} {b : Byte} {r : Row} (h : RowSelected m p b r) :
    decodeRow m (parserWord p b) = r := by
  rw [decodeRow_parserWord]
  cases h with
  | ws1Sync1 | ws2Sync2 | ws2Resync | capId | capSeq | pstateRsv5 => rfl
  | ws1Other h => exact if_neg h
  | ws2Other h2 h1 => exact (if_neg h2).trans (if_neg h1)
  | capCrcOk h | capCrcBad h => subst h; rfl
  | pstateRsv67 low =>
    obtain rfl | rfl : low = 0 ∨ low = 1 := by revert low; decide
    · rfl
    · rfl

/-- The reserved rows are those of the reserved state codes. -/
theorem RowSelected.not_reserved {m : Bool} {p : BitVec 3} {b : Byte} {r : Row} (h : RowSelected m p b r) (hp : p < 5#3) :
    r ≠ .pstateRsv5 ∧ r ≠ .pstateRsv67 := by
  cases h with
  | pstateRsv5 => exact absurd hp (by decide)
  | pstateRsv67 low => exact absurd hp (by revert low; decide)
  | ws1Sync1 | ws1Other | ws2Sync2 | ws2Resync | ws2Other | capId | capSeq | capCrcOk | capCrcBad => decide

/-- The checksum comparison matters to the rows of CaptureCrc only (R69). -/
theorem RowSelected.change_match {m m' : Bool} {p : BitVec 3} {b : Byte} {r : Row} (h : RowSelected m p b r)
    (hm : p = 4 → m = m') : RowSelected m' p b r := by
  cases h with
  | ws1Sync1 => exact .ws1Sync1
  | ws1Other h => exact .ws1Other h
  | ws2Sync2 => exact .ws2Sync2
  | ws2Resync => exact .ws2Resync
  | ws2Other h2 h1 => exact .ws2Other h2 h1
  | capId => exact .capId
  | capSeq => exact .capSeq
  | capCrcOk h => exact .capCrcOk (hm rfl ▸ h)
  | capCrcBad h => exact .capCrcBad (hm rfl ▸ h)
  | pstateRsv5 => exact .pstateRsv5
  | pstateRsv67 low => exact .pstateRsv67 low

/-! Decode and encode (R63, R69, R84). -/

/-- A row's word is the encoding of the operation it stands for (R69). -/
theorem encode_rowInstr {m : Bool} {p : BitVec 3} {b : Byte} {r : Row} (h : RowSelected m p b r) :
    encode (r.instr (parserWord p b)) = some (.word (parserWord p b)) := by
  cases h with
  | ws1Sync1 | ws2Sync2 | ws2Resync => rfl
  | ws1Other | ws2Other | capId | capSeq | capCrcOk | capCrcBad | pstateRsv5 =>
    simp only [Row.instr, encode, wordByte_parserWord]
  | pstateRsv67 low =>
    simp only [Row.instr, encode, wordByte_parserWord, extractLsb'_state_parserWord, lowBit_append]

/-- A row's condition is the well-formedness of its operation. -/
theorem rowInstr_wellFormedAt (c : Config) (capId capSeq : Byte) {p : BitVec 3} {b : Byte} {r : Row}
    (h : RowSelected (b == Machine.crc8 [capId, capSeq]) p b r) :
    (r.instr (parserWord p b)).wellFormedAt c capId capSeq = true := by
  cases h with
  | ws1Sync1 | ws2Sync2 | ws2Resync | capId | capSeq | pstateRsv5 | pstateRsv67 => rfl
  | ws1Other h => simpa [Row.instr, Instr.wellFormedAt, Instr.wellFormed] using h
  | ws2Other h2 h1 => simpa [Row.instr, Instr.wellFormedAt, Instr.wellFormed] using ⟨h2, h1⟩
  | capCrcOk h | capCrcBad h => simpa [Row.instr, Instr.wellFormedAt, Instr.wellFormed] using h

theorem decodeParserWord_of_selected (capId capSeq : Byte) {p : BitVec 3} {b : Byte} {r : Row}
    (h : RowSelected (b == Machine.crc8 [capId, capSeq]) p b r) :
    decodeParserWord capId capSeq (parserWord p b) = r.instr (parserWord p b) := by
  unfold decodeParserWord
  rw [wordByte_parserWord, decodeRow_of_selected h]

/-- A well-formed operation whose encoding is a word is the operation of a row that this word selects. -/
theorem encode_eq_word {c : Config} {capId capSeq : Byte} {i : Instr} {pw : BitVec 11}
    (hwf : i.wellFormedAt c capId capSeq = true) (he : encode i = some (.word pw)) :
    ∃ p b r, pw = parserWord p b ∧ RowSelected (b == Machine.crc8 [capId, capSeq]) p b r ∧
      r.instr (parserWord p b) = i := by
  cases i with
  | ws1Sync1 => cases he; exact ⟨0, SYNC1, _, rfl, .ws1Sync1, rfl⟩
  | ws1Other b =>
    have h : b ≠ SYNC1 := by simpa [Instr.wellFormedAt, Instr.wellFormed] using hwf
    cases he; exact ⟨0, b, _, rfl, .ws1Other h, by simp [Row.instr]⟩
  | ws2Sync2 => cases he; exact ⟨1, SYNC2, _, rfl, .ws2Sync2, rfl⟩
  | ws2Resync => cases he; exact ⟨1, SYNC1, _, rfl, .ws2Resync, rfl⟩
  | ws2Other b =>
    obtain ⟨h2, h1⟩ : b ≠ SYNC2 ∧ b ≠ SYNC1 := by simpa [Instr.wellFormedAt, Instr.wellFormed] using hwf
    cases he; exact ⟨1, b, _, rfl, .ws2Other h2 h1, by simp [Row.instr]⟩
  | capId b => cases he; exact ⟨2, b, _, rfl, .capId, by simp [Row.instr]⟩
  | capSeq b => cases he; exact ⟨3, b, _, rfl, .capSeq, by simp [Row.instr]⟩
  | capCrcOk b =>
    have h : (b == Machine.crc8 [capId, capSeq]) = true := hwf
    cases he; exact ⟨4, b, _, rfl, .capCrcOk h, by simp [Row.instr]⟩
  | capCrcBad b =>
    have h : (b == Machine.crc8 [capId, capSeq]) = false := by
      simpa [Instr.wellFormedAt, Instr.wellFormed] using hwf
    cases he; exact ⟨4, b, _, rfl, .capCrcBad h, by simp [Row.instr]⟩
  | pstateRsv5 b => cases he; exact ⟨5, b, _, rfl, .pstateRsv5, by simp [Row.instr]⟩
  | pstateRsv67 low b =>
    cases he
    exact ⟨_, b, _, rfl, .pstateRsv67 low, by
      simp only [Row.instr, wordByte_parserWord, extractLsb'_state_parserWord, lowBit_append]⟩
  | hbFrame | crc8 | encode | consumeByte | send | sendDue | isPeerAlive | arbInitialize | claimNoop | claimBegin | claimHold
  | claimFinish | claimToNone | claimReturn | boot | tickStart | drain | sendPhase | eval | evalPrimary | evalStandby
  | evalTakingover | evalActiveAfterTakeover | failoverAck | reset => cases he

/-- The frame decoder accepts exactly the valid frames, and reads the three fields from them (R84). -/
theorem decodeFrame_eq_ok (f : List Byte) (i : Instr) :
    decodeFrame f = .ok i ↔
      ∃ id seq, f = [SYNC1, SYNC2, id, seq, Machine.crc8 [id, seq]] ∧ i = .hbFrame id seq (Machine.crc8 [id, seq]) := by
  constructor
  · intro h
    unfold decodeFrame at h
    split at h
    · next syncA syncB id seq crc =>
      split_ifs at h with ha hb hc
      rw [ne_eq, not_not] at ha hb hc
      subst ha hb hc
      cases h
      exact ⟨id, seq, rfl, rfl⟩
    · cases h
  · rintro ⟨id, seq, rfl, rfl⟩
    simp [decodeFrame]

/-- Only the frame operation is encoded as a frame (R63, R76). -/
theorem encode_eq_frame {i : Instr} {f : List Byte} (he : encode i = some (.frame f)) :
    ∃ id seq crc, i = .hbFrame id seq crc ∧ f = [SYNC1, SYNC2, id, seq, crc] := by
  cases i with
  | hbFrame id seq crc => cases he; exact ⟨id, seq, crc, rfl, rfl⟩
  | _ => cases he

/-- Settles O9: a word is decoded as the operation of the one row it selects, a frame by its three fields. -/
theorem decodeOfEncodeIsIdentity : Obligations.DecodeOfEncodeIsIdentity := by
  intro c capId capSeq i e hwf he
  cases e with
  | word pw =>
    obtain ⟨p, b, r, rfl, hsel, rfl⟩ := encode_eq_word hwf he
    exact congrArg Except.ok (decodeParserWord_of_selected capId capSeq hsel)
  | frame f =>
    obtain ⟨id, seq, crc, rfl, rfl⟩ := encode_eq_frame he
    have hcrc : crc = Machine.crc8 [id, seq] := by simpa [Instr.wellFormedAt, Instr.wellFormed] using hwf
    rw [hcrc]
    exact (decodeFrame_eq_ok _ _).2 ⟨id, seq, rfl, rfl⟩

/-- Settles O10: a word is the encoding of its row's operation, whose condition is the row's; a frame that decodes holds its own
checksum. -/
theorem encodeOfDecodeIsIdentity : Obligations.EncodeOfDecodeIsIdentity := by
  intro c capId capSeq
  refine ⟨fun pw => ?_, fun f i h => ?_⟩
  · obtain ⟨p, b, rfl⟩ : ∃ p b, pw = parserWord p b := ⟨_, _, (parserWord_fields pw).symm⟩
    have hsel := decodeRow_selected (b == Machine.crc8 [capId, capSeq]) p b
    rw [decodeParserWord_of_selected capId capSeq hsel]
    exact ⟨encode_rowInstr hsel, rowInstr_wellFormedAt c capId capSeq hsel⟩
  · obtain ⟨id, seq, rfl, rfl⟩ := (decodeFrame_eq_ok f i).1 h
    exact ⟨rfl, by simp [Instr.wellFormedAt, Instr.wellFormed]⟩

/-- Between the two sync bytes and the end of a frame only the checksum decides (R84). -/
theorem decodeFrame_sync (id seq crc : Byte) :
    decodeFrame [SYNC1, SYNC2, id, seq, crc] =
      if crc = Machine.crc8 [id, seq] then .ok (.hbFrame id seq crc) else .error .checksum := by
  simp [decodeFrame]

/-- A 40-bit word of the table is decoded as a frame. -/
theorem decodeTableWord_frame (w : Nat) (hw : w < 2 ^ 40) :
    decodeTableWord 40 w = (decodeFrame (frameBytes w)).toOption := by
  unfold decodeTableWord
  rw [if_neg (by decide), if_pos rfl, if_pos hw]

/-- Settles O11: each word computes to its row; of the two frames the first holds the checksum of its payload 41 00, which is 4E,
and the second does not. -/
theorem wordsFromTheTablesDecode : Obligations.WordsFromTheTablesDecode := by
  have hcrc : Machine.crc8 [0x41, 0x00] = 0x4E := by
    simp [Machine.crc8, Machine.crcByte, Machine.crcShifts, Machine.crcShift, CRC_INIT, CRC_XOROUT, POLY]
  have hok : frameBytes 0xAA5541004E = [SYNC1, SYNC2, 0x41, 0x00, 0x4E] := by decide
  have hbad : frameBytes 0xAA5541004F = [SYNC1, SYNC2, 0x41, 0x00, 0x4F] := by decide
  refine ⟨by decide, by decide, by decide, by decide, by decide, by decide, by decide, by decide, by decide, ?_, ?_⟩
  · rw [decodeTableWord_frame _ (by decide), hok, decodeFrame_sync, if_pos hcrc.symm]
    rfl
  · rw [decodeTableWord_frame _ (by decide), hbad, decodeFrame_sync, hcrc, if_neg (by decide)]
    rfl

/-! The printed table (R69). -/

/-- The lines of the table, each match and mask as a state code and a byte. -/
theorem parserTable_fields : parserTable = [
    ⟨.ws1Sync1, parserWord 0 SYNC1, parserWord 7 0xFF⟩, ⟨.ws1Other, parserWord 0 0, parserWord 7 0⟩,
    ⟨.ws2Sync2, parserWord 1 SYNC2, parserWord 7 0xFF⟩, ⟨.ws2Resync, parserWord 1 SYNC1, parserWord 7 0xFF⟩,
    ⟨.ws2Other, parserWord 1 0, parserWord 7 0⟩, ⟨.capId, parserWord 2 0, parserWord 7 0⟩,
    ⟨.capSeq, parserWord 3 0, parserWord 7 0⟩, ⟨.capCrcOk, parserWord 4 0, parserWord 7 0⟩,
    ⟨.capCrcBad, parserWord 4 0, parserWord 7 0⟩, ⟨.pstateRsv5, parserWord 5 0, parserWord 7 0⟩,
    ⟨.pstateRsv67, parserWord 6 0, parserWord 6 0⟩] := by
  decide

/-- A line selects a word by its state code, its byte and its condition. -/
theorem selects_parserWord (m : Bool) (r : Row) (p q k : BitVec 3) (b c n : Byte) :
    RowPattern.selects m (parserWord p b) ⟨r, parserWord q c, parserWord k n⟩ =
      (decide (p &&& k = q) && decide (b &&& n = c) && rowCondition m b r) := by
  unfold RowPattern.selects
  rw [parserWord_and, wordByte_parserWord]
  congr 1
  rw [Bool.eq_iff_iff]
  simp only [beq_iff_eq, parserWord_inj, Bool.and_eq_true, decide_eq_true_eq]

/-- The condition column holds for the row selected. -/
theorem RowSelected.rowCondition {m : Bool} {p : BitVec 3} {b : Byte} {r : Row} (h : RowSelected m p b r) :
    rowCondition m b r = true := by
  cases h with
  | ws1Sync1 | ws2Sync2 | ws2Resync | capId | capSeq | pstateRsv5 | pstateRsv67 => rfl
  | ws1Other h => exact bne_iff_ne.2 h
  | ws2Other h2 h1 => exact Bool.and_eq_true_iff.2 ⟨bne_iff_ne.2 h2, bne_iff_ne.2 h1⟩
  | capCrcOk h | capCrcBad h => subst h; rfl

/-- The codes that the mask of the last line lets through. -/
theorem and_six_eq_six (p : BitVec 3) : p &&& 6 = 6 ↔ ∃ low : BitVec 1, p = 0b11#2 ++ low := by
  revert p; decide

/-- A line of the table selects exactly the words of its row: match, mask and condition say what `RowSelected` does. -/
theorem selects_iff_rowSelected (m : Bool) (p : BitVec 3) (b : Byte) (line : RowPattern) (hline : line ∈ parserTable) :
    line.selects m (parserWord p b) = true ↔ RowSelected m p b line.row := by
  have hp : p &&& 7 = p := BitVec.and_allOnes
  have hb : b &&& 0xFF = b := BitVec.and_allOnes
  have hb0 : b &&& 0 = 0 := BitVec.and_zero
  rw [parserTable_fields] at hline
  simp only [List.mem_cons, List.not_mem_nil, or_false] at hline
  constructor
  · intro h
    obtain rfl | rfl | rfl | rfl | rfl | rfl | rfl | rfl | rfl | rfl | rfl := hline <;>
      simp only [selects_parserWord, hp, hb, hb0, and_six_eq_six, Bool.and_eq_true, decide_eq_true_eq, and_true] at h <;>
      obtain ⟨h, hcond⟩ := h
    · obtain ⟨rfl, rfl⟩ := h; exact .ws1Sync1
    · subst h; exact .ws1Other (bne_iff_ne.1 hcond)
    · obtain ⟨rfl, rfl⟩ := h; exact .ws2Sync2
    · obtain ⟨rfl, rfl⟩ := h; exact .ws2Resync
    · subst h
      obtain ⟨h2, h1⟩ := Bool.and_eq_true_iff.1 hcond
      exact .ws2Other (bne_iff_ne.1 h2) (bne_iff_ne.1 h1)
    · subst h; exact .capId
    · subst h; exact .capSeq
    · subst h; exact .capCrcOk hcond
    · subst h; exact .capCrcBad (Bool.not_eq_true' m ▸ hcond)
    · subst h; exact .pstateRsv5
    · obtain ⟨low, rfl⟩ := h; exact .pstateRsv67 low
  · intro h
    have hcond := h.rowCondition
    obtain rfl | rfl | rfl | rfl | rfl | rfl | rfl | rfl | rfl | rfl | rfl := hline <;>
      simp only [selects_parserWord, hp, hb, hb0, and_six_eq_six, hcond, decide_true, Bool.and_true, decide_eq_true_eq,
        Bool.and_eq_true] <;>
      cases h <;> simp

/-- Of the table's lines exactly one has a given row. -/
theorem filter_parserTable_row (r : Row) :
    (parserTable.filter fun line => decide (line.row = r)).map RowPattern.row = [r] := by
  cases r <;> rfl

/-- The lines that select a word are the one line of its row. -/
theorem filter_parserTable (m : Bool) (p : BitVec 3) (b : Byte) :
    (parserTable.filter (RowPattern.selects m (parserWord p b))).map RowPattern.row = [decodeRow m (parserWord p b)] := by
  rw [← filter_parserTable_row]
  congr 1
  refine List.filter_congr fun line hline => ?_
  rw [Bool.eq_iff_iff, selects_iff_rowSelected m p b line hline, decide_eq_true_eq]
  exact ⟨fun h => (decodeRow_of_selected h).symm, fun h => h ▸ decodeRow_selected m p b⟩

end Sys2Proof
end

section
/-! PROOFS. The parser's rows as they run (R69, R87), the faults of the reserved codes (R74), and a placed word or frame as the
steps of DRAIN that meet it (R117, R124). -/

namespace Sys2Proof.Machine

/-! Consumed bytes (R87). -/

/-- The row a byte takes is the one the relation of R69 gives it. -/
theorem rowOf_of_selected {s : State} {b : Byte} {r : Row} (h : RowSelected (b == s.capturedCrc) s.link.pstate b r) :
    s.rowOf b = r :=
  decodeRow_of_selected h

/-- Settles O8: the lines of the table that select a word are filtered to its one row, and each row but the reserved two writes
the next state the table gives it. -/
theorem everyParserWordSelectsOneRow : Obligations.EveryParserWordSelectsOneRow := by
  refine ⟨fun m pw => ?_, fun s b hp => ?_⟩
  · obtain ⟨p, b, rfl⟩ : ∃ p b, pw = parserWord p b := ⟨_, _, (parserWord_fields pw).symm⟩
    exact filter_parserTable m p b
  · have hexec : exec (.consumeByte b) s =
        runRow (decodeRow (b == crc8 [s.link.capId, s.link.capSeq]) (s.link.pstate ++ b)) b s := rfl
    obtain ⟨h5, h67⟩ := (decodeRow_selected (b == crc8 [s.link.capId, s.link.capSeq]) s.link.pstate b).not_reserved hp
    rw [hexec]
    unfold parserWord at h5 h67
    generalize decodeRow (b == crc8 [s.link.capId, s.link.capSeq]) (s.link.pstate ++ b) = r at *
    cases r with
    | pstateRsv5 => exact absurd rfl h5
    | pstateRsv67 => exact absurd rfl h67
    | ws1Sync1 | ws1Other | ws2Sync2 | ws2Resync | ws2Other | capId | capSeq | capCrcOk | capCrcBad =>
      exact ⟨_, rfl, rfl⟩

/-- The rows read and write the link registers only, so that what waits in the receive queue makes no difference to them. -/
theorem runRow_with_rxQueue (r : Row) (b : Byte) (s : State) (q : List Byte) :
    runRow r b { s with env.rxQueue := q } = mapNext (fun t => { t with env.rxQueue := q }) (runRow r b s) := by
  cases r <;> rfl

theorem execConsumeByte_with_rxQueue (b : Byte) (s : State) (q : List Byte) :
    execConsumeByte b { s with env.rxQueue := q } =
      mapNext (fun t => { t with env.rxQueue := q }) (execConsumeByte b s) :=
  runRow_with_rxQueue (s.rowOf b) b s q

/-- Running a selected row is executing the operation that the decoder makes of its word. -/
theorem runRow_eq_exec (r : Row) (p : BitVec 3) (b : Byte) (s : State) (hp : s.link.pstate = p) :
    runRow r b s = exec (r.instr (parserWord p b)) s := by
  subst hp
  cases r with
  | pstateRsv67 =>
    simp only [runRow, Row.instr, exec, extractLsb'_state_parserWord, wordByte_parserWord]
  | ws1Sync1 | ws1Other | ws2Sync2 | ws2Resync | ws2Other | capId | capSeq | capCrcOk | capCrcBad | pstateRsv5 =>
    simp only [runRow, Row.instr, exec, wordByte_parserWord]

/-! Reserved codes (R74). -/

/-- A reserved parser state is a fault that names it, whatever the byte. -/
theorem execConsumeByte_of_reserved (b : Byte) (s : State) (h : 5#3 ≤ s.link.pstate) :
    execConsumeByte b s = .fault (.reservedParserState s.link.pstate) := by
  have hcases : ∀ p : BitVec 3, 5#3 ≤ p → p = 5 ∨ ∃ low : BitVec 1, p = 0b11#2 ++ low := by decide
  obtain hp | ⟨low, hp⟩ := hcases _ h
  · have hrow : s.rowOf b = .pstateRsv5 := rowOf_of_selected (hp ▸ .pstateRsv5)
    unfold execConsumeByte
    rw [hrow, hp]
    rfl
  · have hrow : s.rowOf b = .pstateRsv67 := rowOf_of_selected (hp ▸ .pstateRsv67 low)
    unfold execConsumeByte
    rw [hrow]
    simp only [runRow, execPstateRsv67, hp, lowBit_append]

/-- A claim reads the owner first. -/
theorem claim_of_reserved (new : Owner) (s : State) (h : s.arb.owner = 3#2) :
    claim new s = .fault (.reservedOwner 3#2) := by
  unfold claim
  rw [h]
  rfl

theorem execClaimNoop_of_reserved (new : Owner) (s : State) (h : s.arb.owner = 3#2) :
    execClaimNoop new s = .fault (.reservedOwner 3#2) := by
  unfold execClaimNoop
  rw [h]
  rfl

theorem execClaimFinish_of_reserved (s : State) (h : s.arb.target = 3#2) :
    execClaimFinish s = .fault (.reservedTarget 3#2) := by
  unfold execClaimFinish
  rw [h]
  rfl

/-- DRAIN of a byte is CONSUME_BYTE on the state without it (R124). -/
theorem execDrain_cons (s : State) (b : Byte) (rest : List Byte) (hq : s.env.rxQueue = b :: rest) :
    execDrain s = execConsumeByte b { s with env.rxQueue := rest } := by
  unfold execDrain
  rw [State.rxPop_cons s b rest hq]

/-- A due takeover runs the claim, on the owner of the state before (R129). -/
theorem execEvalStandby_of_reserved (s : State) (hdue : s.takeoverDue s.seq.t = true) (h : s.arb.owner = 3#2) :
    execEvalStandby s = .fault (.reservedOwner 3#2) := by
  unfold execEvalStandby
  rw [if_pos hdue]
  exact claim_of_reserved _ _ h

/-- Settles O16: each operation stops where it reads the register. -/
theorem reservedCodesStop : Obligations.ReservedCodesStop := by
  intro s b id seq crc rest low new
  refine ⟨rfl, ?_, fun hp => ⟨execConsumeByte_of_reserved b s hp, ?_, fun hq => ?_⟩,
    fun ho => ⟨execClaimNoop_of_reserved new s ho, claim_of_reserved new s ho, fun hdue =>
      ⟨execEvalStandby_of_reserved s hdue ho, fun hrole => ?_⟩⟩, execClaimFinish_of_reserved s⟩
  · obtain rfl | rfl : low = 0#1 ∨ low = 1#1 := by revert low; decide
    · rfl
    · rfl
  · have hfirst := execConsumeByte_of_reserved SYNC1 s hp
    simp only [exec, execHbFrame, consumeAll, hfirst, andThen]
  · exact (execDrain_cons s b rest hq).trans (execConsumeByte_of_reserved b { s with env.rxQueue := rest } hp)
  · have heval : exec .eval s = execEvalStandby s := by simp only [exec, execEval, hrole]
    rw [heval]
    exact execEvalStandby_of_reserved s hdue ho

/-- The sequencer finds no reserved code exactly when the three registers it reads are legal. -/
theorem reservedCode_eq_none (s : State) :
    s.reservedCode = none ↔ s.link.pstate < 5#3 ∧ s.arb.owner ≠ 3#2 ∧ s.arb.target ≠ 3#2 := by
  rw [← BitVec.not_le, ← PState.ofCode_eq_none, ne_eq, ← Owner.ofCode_eq_none, ne_eq, ← Owner.ofCode_eq_none]
  unfold State.reservedCode
  split_ifs with hp ho ht
  · simp [hp]
  · simp [ho]
  · simp [ht]
  · simp [hp, ho, ht]

theorem step_of_no_moves (s : State) (h : s.moves = []) : step s = coreTurn s := by
  unfold step takeTurn
  rw [h]

theorem coreTurn_of_reservedPhase (s : State) (hr : s.env.resetPin = false) (h : 6#3 ≤ s.seq.phase) :
    coreTurn s = .fault (.reservedPhase s.seq.phase) := by
  unfold coreTurn State.nextInstr
  rw [(Phase.ofCode_eq_none _).2 h, hr]
  rfl

/-- In every phase but BOOT a reserved code stops the core's turn. -/
theorem coreTurn_of_reservedCode (s : State) (p : Phase) (f : Fault) (hr : s.env.resetPin = false)
    (hp : s.seq.phase = p.code) (hboot : p ≠ .boot) (hf : s.reservedCode = some f) : coreTurn s = .fault f := by
  unfold coreTurn State.nextInstr
  rw [hp, Phase.ofCode_code, hf, hr]
  cases p with
  | boot => exact absurd rfl hboot
  | tickStart | drain | send | eval | claimHold => rfl

/-- Settles O17: the phase is decoded first, then the sequencer looks for a reserved code unless the phase is BOOT. -/
theorem stepFaultsOnAReservedCode : Obligations.StepFaultsOnAReservedCode := by
  intro s hr hm
  rw [step_of_no_moves s hm]
  refine ⟨coreTurn_of_reservedPhase s hr, fun hboot hcodes => ?_⟩
  cases hp : Phase.ofCode s.seq.phase with
  | none => exact ⟨_, coreTurn_of_reservedPhase s hr ((Phase.ofCode_eq_none _).1 hp)⟩
  | some p =>
    have hlegal : s.seq.phase < 6#3 := by
      rw [← BitVec.not_le, ← Phase.ofCode_eq_none, hp]
      exact nofun
    rw [Phase.ofCode_eq_some] at hp
    cases hf : s.reservedCode with
    | some f => exact ⟨f, coreTurn_of_reservedCode s p f hr hp (fun h => hboot (by rw [hp, h]; rfl)) hf⟩
    | none =>
      obtain ⟨hpstate, howner, htarget⟩ := (reservedCode_eq_none s).1 hf
      exact absurd ⟨hpstate, howner, htarget, hlegal⟩ hcodes

/-! A byte before the core (R117, R124). -/

/-- The core's turn is next, in DRAIN, with no reserved owner or target. -/
def DrainsNext (s : State) : Prop :=
  s.env.resetPin = false ∧ s.moves = [] ∧ s.seq.phase = Phase.drain.code ∧ s.arb.owner ≠ 3#2 ∧ s.arb.target ≠ 3#2

/-- The step consumes the oldest byte, and in a reserved parser state it is the fault the byte would be. -/
theorem step_of_drainsNext (s : State) (h : DrainsNext s) (b : Byte) (rest : List Byte) (hq : s.env.rxQueue = b :: rest) :
    step s = execConsumeByte b { s with env.rxQueue := rest } := by
  obtain ⟨hr, hm, hp, ho, ht⟩ := h
  rw [step_of_no_moves s hm]
  by_cases hl : s.link.pstate < 5#3
  · rw [coreTurn_eq_exec s .drain hr hp hl ho ht]
    exact execDrain_cons s b rest hq
  · have hres : 5#3 ≤ s.link.pstate := BitVec.not_lt.1 hl
    have hcode : s.reservedCode = some (.reservedParserState s.link.pstate) := by
      simp only [State.reservedCode, (PState.ofCode_eq_none _).2 hres, if_true]
    rw [coreTurn_of_reservedCode s .drain _ hr hp (by decide) hcode]
    exact (execConsumeByte_of_reserved b { s with env.rxQueue := rest } hres).symm

/-- A consumed byte leaves the core in DRAIN, whatever waits in the queue. -/
theorem drainsNext_of_execConsumeByte (b : Byte) (s t : State) (q : List Byte) (h : DrainsNext s)
    (ht : execConsumeByte b s = .next t) : DrainsNext { t with env.rxQueue := q } := by
  obtain ⟨hframe, -⟩ := execConsumeByte_frame b s t ht
  rw [hframe]
  exact h

/-- As many steps as bytes consume them all, and leave the rest of the queue (R124). -/
theorem runSteps_of_drainsNext (bytes rest : List Byte) (s : State) (h : DrainsNext s)
    (hq : s.env.rxQueue = bytes ++ rest) :
    runSteps bytes.length s = consumeAll bytes { s with env.rxQueue := rest } := by
  induction bytes generalizing s with
  | nil =>
    rw [List.nil_append] at hq
    rw [← hq]
    rfl
  | cons b bs ih =>
    have hstep := step_of_drainsNext s h b (bs ++ rest) hq
    have hqueue := execConsumeByte_with_rxQueue b { s with env.rxQueue := rest } (bs ++ rest)
    have hrun : runSteps (b :: bs).length s = andThen (step s) (runSteps bs.length) := rfl
    rw [hrun, hstep, consumeAll]
    refine (congrArg (andThen · (runSteps bs.length)) hqueue).trans ?_
    cases hout : execConsumeByte b { s with env.rxQueue := rest } with
    | fault f => rfl
    | refused r => rfl
    | next t =>
      have hrest : t.env.rxQueue = rest := by
        obtain ⟨hframe, -⟩ := execConsumeByte_frame b _ t hout
        rw [hframe]
      have hnext := drainsNext_of_execConsumeByte b { s with env.rxQueue := rest } t (bs ++ rest) h hout
      have hsame : { t with env.rxQueue := rest } = t := by rw [← hrest]
      exact (ih { t with env.rxQueue := bs ++ rest } hnext rfl).trans (congrArg (consumeAll bs) hsame)

/-! Placed words and frames. -/

/-- A word of the table with another width than a frame's is a parser word, decoded against a captured payload 00 00. -/
theorem decodeTableWord_eq_some_word (nbits w : Nat) (i : Instr) (hn : nbits ≠ 40) (h : decodeTableWord nbits w = some i) :
    ∃ pw : BitVec 11, i = decodeParserWord 0x00 0x00 pw ∧ ∀ s : State, s.withFetchWord nbits w = s.placeParserWord pw := by
  unfold decodeTableWord at h
  split at h
  · next hwidth =>
    split at h
    · next hw =>
      cases h
      refine ⟨BitVec.ofNat 11 w, rfl, fun s => ?_⟩
      unfold State.withFetchWord State.placeTableWord
      rw [if_pos hwidth, if_pos hw]
    · cases h
  · cases h

theorem decodeTableWord_eq_some_frame (w : Nat) (i : Instr) (h : decodeTableWord 40 w = some i) :
    decodeFrame (frameBytes w) = .ok i ∧ ∀ s : State, s.withFetchWord 40 w = s.placeFrame (frameBytes w) := by
  by_cases hw : w < 2 ^ 40
  · rw [decodeTableWord_frame w hw] at h
    refine ⟨?_, fun s => ?_⟩
    · cases hd : decodeFrame (frameBytes w) with
      | ok j =>
        rw [hd] at h
        exact congrArg Except.ok (Option.some.inj h)
      | error e =>
        rw [hd] at h
        cases h
    · unfold State.withFetchWord State.placeTableWord
      rw [if_neg (by decide), if_pos rfl, if_pos hw]
  · unfold decodeTableWord at h
    rw [if_neg (by decide), if_pos rfl, if_neg hw] at h
    cases h

/-- What the core finds of a placed word: the word's state code, its byte before the bytes that waited, and the captured payload
00 00 where the word's row reads it (R69). -/
theorem placeParserWord_fields (s : State) (p : BitVec 3) (b : Byte) :
    (s.placeParserWord (parserWord p b)).link.pstate = p ∧
      (s.placeParserWord (parserWord p b)).env.rxQueue = b :: s.env.rxQueue ∧
      (p = 4 → (s.placeParserWord (parserWord p b)).capturedCrc = crc8 [0x00, 0x00]) := by
  simp only [State.placeParserWord, wordState_parserWord, wordByte_parserWord]
  split
  · exact ⟨rfl, rfl, fun _ => rfl⟩
  · next hp => exact ⟨rfl, rfl, fun h => absurd h hp⟩

theorem placeParserWord_drainsNext (s : State) (pw : BitVec 11) (ho : s.arb.owner ≠ 3#2) (ht : s.arb.target ≠ 3#2) :
    DrainsNext (s.placeParserWord pw) := by
  simp only [State.placeParserWord]
  split
  · exact ⟨rfl, rfl, rfl, ho, ht⟩
  · exact ⟨rfl, rfl, rfl, ho, ht⟩

/-- Settles O12: the placed byte is the next one consumed, and the row it takes is the one its word decodes to. -/
theorem stepRunsAPlacedParserWord : Obligations.StepRunsAPlacedParserWord := by
  intro s nbits w i hn hi ho ht
  obtain ⟨pw, rfl, hplace⟩ := decodeTableWord_eq_some_word nbits w i hn hi
  obtain ⟨p, b, rfl⟩ : ∃ p b, pw = parserWord p b := ⟨_, _, (parserWord_fields pw).symm⟩
  rw [hplace]
  obtain ⟨hp, hq, hcrc⟩ := placeParserWord_fields s p b
  rw [step_of_drainsNext _ (placeParserWord_drainsNext s _ ho ht) b _ hq]
  generalize s.placeParserWord (parserWord p b) = u at hp hcrc
  have hsel := decodeRow_selected (b == crc8 [0x00, 0x00]) p b
  have hrow : u.rowOf b = decodeRow (b == crc8 [0x00, 0x00]) (parserWord p b) := by
    refine rowOf_of_selected ?_
    rw [hp]
    exact hsel.change_match fun h => by rw [hcrc h]
  rw [decodeParserWord_of_selected 0x00 0x00 hsel, ← hrow]
  exact runRow_eq_exec (u.rowOf b) p b { u with env.rxQueue := s.env.rxQueue } hp

/-- Settles O13: five steps of DRAIN consume the five bytes, which is what HB_FRAME does. -/
theorem placedFrameRunsInFiveSteps : Obligations.PlacedFrameRunsInFiveSteps := by
  intro s w i hi ho ht
  obtain ⟨hframe, hplace⟩ := decodeTableWord_eq_some_frame w i hi
  obtain ⟨id, seq, hbytes, rfl⟩ := (decodeFrame_eq_ok _ _).1 hframe
  rw [hplace, hbytes]
  exact runSteps_of_drainsNext [SYNC1, SYNC2, id, seq, crc8 [id, seq]] s.env.rxQueue _ ⟨rfl, rfl, rfl, ho, ht⟩ rfl

end Sys2Proof.Machine
end

section
/-! PROOFS. Elapsed times as differences of integers (R10), and the bits of the status word (R75). -/

namespace Sys2Proof.Machine

/-- The difference of R10 on integers. -/
theorem elapsed_eq_int (w : Nat) (tNow tThen : Time) :
    ((elapsed w tNow tThen : Nat) : Int) = ((tNow : Int) - tThen) % 2 ^ w := by
  have hle : tThen % 2 ^ w ≤ 2 ^ w := (Nat.mod_lt _ (Nat.two_pow_pos w)).le
  unfold elapsed
  push_cast [hle]
  rw [← add_sub_assoc, Int.sub_emod, Int.emod_emod_of_dvd _ dvd_rfl, ← Int.sub_emod, add_sub_right_comm,
    Int.add_emod_right]

/-- A sample of the clock and the clock itself are as far from any time. -/
theorem elapsed_mod_left (w : Nat) (tNow tThen : Time) : elapsed w (tNow % 2 ^ w) tThen = elapsed w tNow tThen :=
  Nat.mod_add_mod _ _ _

/-- The liveness output is the test of R102 at the current clock, on integers (R39). -/
theorem statusPeerAlive_eq (s : State) :
    s.statusPeerAlive = (s.link.peerKnown &&
      decide (((s.env.clkMs : Int) - s.link.lastRx) % 2 ^ s.cfg.clockWidth ≤ s.cfg.peerTimeout)) := by
  unfold State.statusPeerAlive State.isPeerAlive State.since State.now
  rw [elapsed_mod_left, ← elapsed_eq_int]
  simp only [Nat.cast_le]

/-- Each bit of the packed word: the fields from the lowest up, as they are laid out (R75). -/
theorem statusWord_getLsbD (st : Status) (i : Nat) :
    st.word.getLsbD i =
      if i < 2 then st.owner.code.getLsbD i
      else if i < 4 then st.role.code.getLsbD (i - 2)
      else if i < 5 then st.peerKnown
      else if i < 6 then st.peerAlive
      else if i < 7 then st.failover
      else if i < 8 then false
      else st.peerId.getLsbD (i - 8) := by
  have hword : st.word.getLsbD i = (st.peerId ++ 0#1 ++ BitVec.ofBool st.failover ++ BitVec.ofBool st.peerAlive ++
    BitVec.ofBool st.peerKnown ++ st.role.code ++ st.owner.code : BitVec (8 + 1 + 1 + 1 + 1 + 2 + 2)).getLsbD i := rfl
  rw [hword]
  have hlt (a b : Nat) (hb : 0 < b) : i - a < b ↔ i < a + b := by omega
  have honly (a : Nat) (v : Bool) (h : i < a + 1) : (decide (i - a = 0) && v) = v := by
    rw [decide_eq_true (by omega), Bool.true_and]
  simp only [BitVec.getLsbD_append, BitVec.getLsbD_ofBool, BitVec.getLsbD_zero]
  simp only [Nat.sub_sub, hlt, Nat.zero_lt_succ, Nat.reduceAdd]
  split_ifs with h2 h4 h5 h6 h7
  · rfl
  · rfl
  · exact honly 4 _ h5
  · exact honly 5 _ h6
  · exact honly 6 _ h7
  · rfl
  · rfl

/-- The fields of the packed word (R75). -/
theorem statusWord_fields (st : Status) :
    st.word.extractLsb' 0 2 = st.owner.code ∧ st.word.extractLsb' 2 2 = st.role.code ∧ st.word[4] = st.peerKnown ∧
      st.word[5] = st.peerAlive ∧ st.word[6] = st.failover ∧ st.word[7] = false ∧
      st.word.extractLsb' 8 8 = st.peerId := by
  refine ⟨?_, ?_, statusWord_getLsbD st 4, statusWord_getLsbD st 5, statusWord_getLsbD st 6, statusWord_getLsbD st 7, ?_⟩
  · ext i hi
    rw [BitVec.getElem_extractLsb', statusWord_getLsbD, if_pos (by omega), Nat.zero_add, BitVec.getLsbD_eq_getElem]
  · ext i hi
    rw [BitVec.getElem_extractLsb', statusWord_getLsbD, if_neg (by omega), if_pos (by omega), Nat.add_sub_cancel_left,
      BitVec.getLsbD_eq_getElem]
  · ext i hi
    rw [BitVec.getElem_extractLsb', statusWord_getLsbD]
    iterate 6 rw [if_neg (by omega)]
    rw [Nat.add_sub_cancel_left, BitVec.getLsbD_eq_getElem]

/-- The outputs of a state whose owner is no reserved code (R39). -/
theorem status_eq_some (s : State) (o : Owner) (h : Owner.ofCode s.arb.owner = some o) :
    s.status = some
      { owner := o, role := s.ctl.role, peerKnown := s.link.peerKnown, peerId := s.link.peerId
        peerAlive := s.statusPeerAlive, failover := s.ctl.failoverFlag } := by
  unfold State.status
  rw [h]
  rfl

/-- Settles O56: each output is packed at its bits, and the liveness among them is the test at the current clock. -/
theorem statusWordHoldsTheStatusOutputs : Obligations.StatusWordHoldsTheStatusOutputs := by
  intro s howner
  obtain ⟨o, ho⟩ : ∃ o, Owner.ofCode s.arb.owner = some o :=
    Option.ne_none_iff_exists'.1 fun h => howner ((Owner.ofCode_eq_none _).1 h)
  obtain ⟨howner', hrole, hknown, halive, hfailover, hzero, hid⟩ := statusWord_fields
    { owner := o, role := s.ctl.role, peerKnown := s.link.peerKnown, peerId := s.link.peerId
      peerAlive := s.statusPeerAlive, failover := s.ctl.failoverFlag }
  refine ⟨_, congrArg (Option.map Status.word) (status_eq_some s o ho),
    howner'.trans ((Owner.ofCode_eq_some _ _).1 ho).symm, hrole.trans ?_, hknown, halive.trans (statusPeerAlive_eq s),
    hfailover, hzero, hid⟩
  cases s.ctl.role <;> rfl

end Sys2Proof.Machine
end

section
/-! PROOFS. The CRC-8 of the frame codec: a shift as a shift and an XOR, from which it is linear and injective; the table form;
then the frame validity test. -/

namespace Sys2Proof.Machine

/-! The shifts of R78. -/

/-- The polynomial a shift XORs in, by the bit that leaves the register. -/
def crcFeedback (bit7 : Bool) : Byte := if bit7 then POLY else 0

theorem crcShift_eq_xor (crc : Byte) : crcShift crc = (crc <<< 1) ^^^ crcFeedback crc[7] := by
  unfold crcShift crcFeedback
  split
  · rfl
  · exact BitVec.xor_zero.symm

theorem crcFeedback_xor (x y : Bool) : crcFeedback (x ^^ y) = crcFeedback x ^^^ crcFeedback y := by
  revert x y; decide

theorem crcShift_zero : crcShift 0 = 0 := by decide

theorem crcShift_xor (a b : Byte) : crcShift (a ^^^ b) = crcShift a ^^^ crcShift b := by
  simp only [crcShift_eq_xor, BitVec.shiftLeft_xor_distrib, BitVec.getElem_xor, crcFeedback_xor]
  ac_rfl

/-- The bit that left the register comes back as bit 0, since the polynomial is odd. -/
theorem crcShift_getElem_zero (crc : Byte) : (crcShift crc)[0] = crc[7] := by
  have hodd : ∀ bit7, (crcFeedback bit7)[0] = bit7 := by decide
  rw [crcShift_eq_xor, BitVec.getElem_xor, hodd, BitVec.getElem_shiftLeft]
  exact Bool.false_xor _

/-- A shift loses nothing: bit 7 is read back from bit 0, and the others from the shifted register. -/
theorem crcShift_injective : Function.Injective crcShift := by
  intro a b h
  have h7 : a[7] = b[7] := by rw [← crcShift_getElem_zero, ← crcShift_getElem_zero, h]
  rw [crcShift_eq_xor, crcShift_eq_xor, h7, BitVec.xor_left_inj] at h
  ext i hi
  obtain rfl | hlt : i = 7 ∨ i + 1 < 8 := by omega
  · exact h7
  · have hbit : (a <<< 1)[i + 1] = (b <<< 1)[i + 1] := by rw [h]
    simpa [BitVec.getElem_shiftLeft] using hbit

theorem crcShifts_eq_iterate (n : Nat) : crcShifts n = crcShift^[n] := by
  induction n with
  | zero => rfl
  | succ n ih => exact funext fun c => congrFun ih (crcShift c)

theorem crcShifts_zero (n : Nat) : crcShifts n 0 = 0 := by
  rw [crcShifts_eq_iterate]
  exact Function.iterate_fixed crcShift_zero n

theorem crcShifts_xor (n : Nat) (a b : Byte) : crcShifts n (a ^^^ b) = crcShifts n a ^^^ crcShifts n b := by
  induction n generalizing a b with
  | zero => rfl
  | succ n ih => simp only [crcShifts, crcShift_xor, ih]

theorem crcShifts_injective (n : Nat) : Function.Injective (crcShifts n) := by
  rw [crcShifts_eq_iterate]
  exact crcShift_injective.iterate n

/-! The checksum of a list of bytes (R78). -/

/-- The initial value and the final XOR are both 0x00. -/
theorem crc8_eq_foldl (bs : List Byte) : crc8 bs = bs.foldl crcByte 0 :=
  BitVec.xor_zero

/-- The last byte is XORed to the checksum of those before it, then shifted in. -/
theorem crc8_concat (bs : List Byte) (b : Byte) : crc8 (bs ++ [b]) = crcShifts 8 (crc8 bs ^^^ b) := by
  simp only [crc8_eq_foldl, List.foldl_concat, crcByte]

theorem crc8_singleton (b : Byte) : crc8 [b] = crcShifts 8 b := by
  rw [crc8_eq_foldl]
  exact congrArg (crcShifts 8) BitVec.zero_xor

theorem crc8_pair (b0 b1 : Byte) : crc8 [b0, b1] = crcShifts 8 (crcShifts 8 b0 ^^^ b1) := by
  rw [← crc8_singleton b0]
  exact crc8_concat [b0] b1

/-- A byte of a payload is determined by the checksum and the other byte. -/
theorem crc8_pair_left_inj (a b c : Byte) : crc8 [a, c] = crc8 [b, c] ↔ a = b := by
  simp only [crc8_pair, (crcShifts_injective 8).eq_iff, BitVec.xor_left_inj]

theorem crc8_pair_right_inj (a b c : Byte) : crc8 [c, a] = crc8 [c, b] ↔ a = b := by
  simp only [crc8_pair, (crcShifts_injective 8).eq_iff, BitVec.xor_right_inj]

/-- Settles O3: the shifts distribute over XOR, so both bytes of the sum do. -/
theorem crc8IsLinearOnTwoBytes : Obligations.Crc8IsLinearOnTwoBytes := by
  intro a1 a2 s1 s2
  simp only [crc8_pair, crcShifts_xor]
  ac_rfl

/-- Settles O4: the checksum XORed with itself is 0x00, which the shifts keep. -/
theorem crc8ResidueIsZero : Obligations.Crc8ResidueIsZero := by
  intro id seq
  calc crc8 [id, seq, crc8 [id, seq]]
      = crcShifts 8 (crc8 [id, seq] ^^^ crc8 [id, seq]) := crc8_concat [id, seq] _
    _ = 0 := by rw [BitVec.xor_self]; exact crcShifts_zero 8

/-- Settles O1: the shift tests bit 7 as the most significant one, and eight of them are the eighth iterate. -/
theorem crc8FollowsTheBitSerialRule : Obligations.Crc8FollowsTheBitSerialRule := by
  intro bs s
  have hshift : crcShift = fun c : Byte => if c.msb then (c <<< 1) ^^^ 0x07#8 else c <<< 1 := by
    funext c
    rw [BitVec.msb_eq_getLsbD_last]
    rfl
  have hbyte : crcByte = fun crc b => crcShift^[8] (crc ^^^ b) := by
    funext crc b
    rw [← crcShifts_eq_iterate]
    rfl
  rw [← hshift, ← hbyte]
  rfl

/-! The printed table (R80). -/

/-- The transcription of the table: its 256 entries, computed one by one. -/
theorem crcTable_eq : crcTable = (List.range 256).map fun n => crcShifts 8 (BitVec.ofNat 8 n) := by
  decide +kernel

theorem crcLookup_eq (v : Byte) : crcLookup v = crcShifts 8 v := by
  have hv : v.toNat < 256 := v.isLt
  unfold crcLookup
  rw [crcTable_eq, List.getD_eq_getElem?_getD, List.getElem?_map, List.getElem?_range hv]
  simp only [Option.map_some, Option.getD_some, BitVec.ofNat_toNat, BitVec.setWidth_eq]

/-- Settles O2: an entry of the table is the eight shifts of its index, so a look-up is what a byte does to the register. -/
theorem crc8EqualsTheTableForm : Obligations.Crc8EqualsTheTableForm := by
  refine ⟨fun v => ?_, fun b0 b1 => ?_, fun bs => ?_⟩
  · rw [crcLookup_eq, crc8_singleton]
  · rw [crcLookup_eq, crcLookup_eq, crc8_pair]
  · simp only [crcLookup_eq]
    exact crc8_eq_foldl bs

/-! The frame validity test (R84). -/

theorem validFrame_five (b0 b1 b2 b3 b4 : Byte) :
    validFrame [b0, b1, b2, b3, b4] = true ↔ b0 = SYNC1 ∧ b1 = SYNC2 ∧ b4 = crc8 [b2, b3] := by
  simp [validFrame, and_assoc]

theorem validFrame_iff (f : List Byte) :
    validFrame f = true ↔ ∃ id seq, f = [SYNC1, SYNC2, id, seq, crc8 [id, seq]] := by
  constructor
  · intro h
    unfold validFrame at h
    split at h
    · next b0 b1 id seq b4 =>
      obtain ⟨rfl, rfl, rfl⟩ := (validFrame_five b0 b1 id seq b4).1 h
      exact ⟨id, seq, rfl⟩
    · exact absurd h Bool.false_ne_true
  · rintro ⟨id, seq, rfl⟩
    exact (validFrame_five _ _ _ _ _).2 ⟨rfl, rfl, rfl⟩

/-- Settles O6: the test and the decoder ask for the same five bytes. -/
theorem frameDecodesExactlyWhenValid : Obligations.FrameDecodesExactlyWhenValid := by
  refine ⟨fun f => (validFrame_iff f).trans ⟨?_, ?_⟩, fun f i => (decodeFrame_eq_ok f i).trans ⟨?_, ?_⟩⟩
  · rintro ⟨id, seq, hf⟩
    exact ⟨id, seq, _, hf, rfl⟩
  · rintro ⟨id, seq, _, hf, rfl⟩
    exact ⟨id, seq, hf⟩
  · rintro ⟨id, seq, hf, hi⟩
    exact ⟨id, seq, _, hf, rfl, hi⟩
  · rintro ⟨id, seq, _, hf, rfl, hi⟩
    exact ⟨id, seq, hf, hi⟩

/-- Settles O7: the result is the encoder's frame, whose last byte is its checksum by construction. -/
theorem encodeLaysOutAValidFrame : Obligations.EncodeLaysOutAValidFrame :=
  fun id seq _ => ⟨rfl, (validFrame_iff _).2 ⟨id, seq, rfl⟩⟩

/-- An error in one byte of a valid frame is seen, whatever bits of the byte it changes: in a payload byte by the checksum, which
determines it. -/
theorem validFrame_modify_xor (f : List Byte) (k : Nat) (m : Byte) (hf : validFrame f = true) (hk : k < 5) (hm : m ≠ 0#8) :
    validFrame (f.modify k (· ^^^ m)) = false := by
  obtain ⟨id, seq, rfl⟩ := (validFrame_iff f).1 hf
  have hne (b : Byte) : b ≠ b ^^^ m := fun h => hm (xor_left_eq_self_iff.1 h.symm)
  rw [← Bool.not_eq_true]
  obtain rfl | rfl | rfl | rfl | rfl : k = 0 ∨ k = 1 ∨ k = 2 ∨ k = 3 ∨ k = 4 := by omega
  · simp [validFrame_five, hm]
  · simp [validFrame_five, hm]
  · simp [validFrame_five, crc8_pair_left_inj, hne]
  · simp [validFrame_five, crc8_pair_right_inj, hne]
  · simp [validFrame_five, hm]

/-- Settles O5: a flipped bit is a change of one byte. -/
theorem everyBitFlipInvalidatesAFrame : Obligations.EveryBitFlipInvalidatesAFrame := by
  intro f hf i hi
  have hmask : ∀ j < 8, 0x80#8 >>> j ≠ 0#8 := by decide
  exact validFrame_modify_xor f (i / 8) _ hf (by omega) (hmask (i % 8) (Nat.mod_lt _ (by decide)))

end Sys2Proof.Machine
end

section
/-! PROOFS. The parser on a run of bytes: how far it can get in a number of bytes, and five bytes from WaitSync1. -/

namespace Sys2Proof.Machine

/-- The peer registers, which only an accepted frame writes (R95, R97), are the same. -/
def PeerKept (s t : State) : Prop :=
  t.link.peerKnown = s.link.peerKnown ∧ t.link.peerId = s.link.peerId ∧ t.link.lastRx = s.link.lastRx

theorem PeerKept.trans {s t u : State} (hst : PeerKept s t) (htu : PeerKept t u) : PeerKept s u := by
  obtain ⟨hknown, hid, hrx⟩ := hst
  obtain ⟨hknown', hid', hrx'⟩ := htu
  exact ⟨hknown'.trans hknown, hid'.trans hid, hrx'.trans hrx⟩

/-- A consumed byte runs the row that the relation of R69 selects. -/
theorem execConsumeByte_of_selected {s : State} {b : Byte} {r : Row}
    (h : RowSelected (b == s.capturedCrc) s.link.pstate b r) : execConsumeByte b s = runRow r b s :=
  congrArg (runRow · b s) (rowOf_of_selected h)

theorem consumeAll_append (bs cs : List Byte) (s : State) :
    consumeAll (bs ++ cs) s = andThen (consumeAll bs s) (consumeAll cs) := by
  induction bs generalizing s with
  | nil => rfl
  | cons b bs ih =>
    simp only [List.cons_append, consumeAll]
    cases execConsumeByte b s with
    | next t => exact ih t
    | fault f => rfl
    | refused r => rfl

/-- Before CaptureCrc a byte takes the parser at most to the next state, and accepts nothing. -/
theorem execConsumeByte_before_captureCrc (b : Byte) (s : State) (h : s.link.pstate.toNat < 4) :
    ∃ t, execConsumeByte b s = .next t ∧ PeerKept s t ∧ t.link.pstate.toNat ≤ s.link.pstate.toNat + 1 := by
  have hsel := decodeRow_selected (b == s.capturedCrc) s.link.pstate b
  rw [execConsumeByte_of_selected hsel]
  generalize decodeRow _ _ = r at hsel
  generalize hp : s.link.pstate = p at hsel h
  cases hsel with
  | ws1Sync1 | ws1Other | ws2Sync2 | ws2Resync | ws2Other | capId | capSeq =>
    exact ⟨_, rfl, ⟨rfl, rfl, rfl⟩, by rw [State.setPState_link_pstate]; decide⟩
  | capCrcOk | capCrcBad | pstateRsv5 => exact absurd h (by decide)
  | pstateRsv67 low =>
    have hlate : ∀ low : BitVec 1, ¬(0b11#2 ++ low).toNat < 4 := by decide
    exact absurd h (hlate low)

/-- Fewer bytes than a frame still needs accept nothing. -/
theorem consumeAll_keeps_peer (bs : List Byte) (s : State) (h : s.link.pstate.toNat + bs.length ≤ 4) :
    ∃ t, consumeAll bs s = .next t ∧ PeerKept s t := by
  induction bs generalizing s with
  | nil => exact ⟨s, rfl, rfl, rfl, rfl⟩
  | cons b bs ih =>
    rw [List.length_cons] at h
    obtain ⟨t, ht, hpeer, hstate⟩ := execConsumeByte_before_captureCrc b s (by omega)
    obtain ⟨u, hu, hpeer'⟩ := ih t (by omega)
    refine ⟨u, ?_, hpeer.trans hpeer'⟩
    rw [consumeAll, ht]
    exact hu

/-- In WaitSync1 the first sync byte is taken (R88). -/
theorem execConsumeByte_sync1 (s : State) (hp : s.link.pstate = 0#3) :
    execConsumeByte SYNC1 s = .next (s.setPState .waitSync2) := by
  have hsel : RowSelected (SYNC1 == s.capturedCrc) s.link.pstate SYNC1 .ws1Sync1 := hp ▸ .ws1Sync1
  exact execConsumeByte_of_selected hsel

/-- In CaptureCrc the checksum of the captured payload decides (R95, R96). -/
theorem execConsumeByte_captureCrc (b : Byte) (s : State) (hp : s.link.pstate = 4#3) :
    execConsumeByte b s =
      .next ((if b = s.capturedCrc then s.acceptFrame else s).setPState .waitSync1) := by
  split
  · next hcrc =>
    have hsel : RowSelected (b == s.capturedCrc) s.link.pstate b .capCrcOk := hp ▸ .capCrcOk (beq_iff_eq.2 hcrc)
    exact execConsumeByte_of_selected hsel
  · next hcrc =>
    have hsel : RowSelected (b == s.capturedCrc) s.link.pstate b .capCrcBad :=
      hp ▸ .capCrcBad (beq_eq_false_iff_ne.2 hcrc)
    exact execConsumeByte_of_selected hsel

/-- Two bytes that are not the sync pair leave the parser, which was in WaitSync1, still waiting for one. -/
theorem consumeAll_not_sync (b0 b1 : Byte) (s : State) (hp : s.link.pstate = 0#3) (h : ¬(b0 = SYNC1 ∧ b1 = SYNC2)) :
    ∃ t, consumeAll [b0, b1] s = .next t ∧ PeerKept s t ∧ t.link.pstate.toNat ≤ 1 := by
  by_cases h0 : b0 = SYNC1
  · subst h0
    have h1 : b1 ≠ SYNC2 := fun h1 => h ⟨rfl, h1⟩
    rw [consumeAll, execConsumeByte_sync1 s hp, andThen_next, consumeAll]
    by_cases hsync : b1 = SYNC1
    · subst hsync
      rw [execConsumeByte_of_selected (s := s.setPState .waitSync2) .ws2Resync]
      exact ⟨_, rfl, ⟨rfl, rfl, rfl⟩, by rw [State.setPState_link_pstate]; decide⟩
    · rw [execConsumeByte_of_selected (s := s.setPState .waitSync2) (.ws2Other h1 hsync)]
      exact ⟨_, rfl, ⟨rfl, rfl, rfl⟩, by rw [State.setPState_link_pstate]; decide⟩
  · have hsel : RowSelected (b0 == s.capturedCrc) s.link.pstate b0 .ws1Other := hp ▸ .ws1Other h0
    rw [consumeAll, execConsumeByte_of_selected hsel]
    obtain ⟨t, ht, hpeer, hstate⟩ := execConsumeByte_before_captureCrc b1 (s.setPState .waitSync1)
      (by rw [State.setPState_link_pstate]; decide)
    refine ⟨t, ?_, hpeer, hstate⟩
    exact congrArg (andThen · (consumeAll [])) ht

/-- The state in CaptureCrc with a payload captured. -/
def State.captured (s : State) (id seq : Byte) : State :=
  { s with link.pstate := PState.captureCrc.code, link.capId := id, link.capSeq := seq }

/-- The sync pair and a payload bring the parser from WaitSync1 to CaptureCrc (R88, R90, R93, R94). -/
theorem consumeAll_sync_payload (id seq : Byte) (s : State) (hp : s.link.pstate = 0#3) :
    consumeAll [SYNC1, SYNC2, id, seq] s = .next (s.captured id seq) := by
  have hsync2 : execConsumeByte SYNC2 (s.setPState .waitSync2) = .next (s.setPState .captureId) :=
    execConsumeByte_of_selected (r := .ws2Sync2) .ws2Sync2
  have hid : execConsumeByte id (s.setPState .captureId) = .next ({ s with link.capId := id }.setPState .captureSeq) :=
    execConsumeByte_of_selected (r := .capId) .capId
  have hseq : execConsumeByte seq ({ s with link.capId := id }.setPState .captureSeq) = .next (s.captured id seq) :=
    execConsumeByte_of_selected (r := .capSeq) .capSeq
  simp only [consumeAll, execConsumeByte_sync1 s hp, hsync2, hid, hseq, andThen_next]

/-- After the sync pair the fifth byte is compared with the checksum of the payload. -/
theorem consumeAll_sync (id seq crc : Byte) (s : State) (hp : s.link.pstate = 0#3) :
    consumeAll [SYNC1, SYNC2, id, seq, crc] s =
      .next ((if crc = crc8 [id, seq] then (s.captured id seq).acceptFrame else s.captured id seq).setPState
        .waitSync1) := by
  have hfour := consumeAll_append [SYNC1, SYNC2, id, seq] [crc] s
  rw [consumeAll_sync_payload id seq s hp, andThen_next, consumeAll,
    execConsumeByte_captureCrc crc (s.captured id seq) rfl] at hfour
  exact hfour

/-- Without the sync pair three more bytes cannot complete a frame. -/
theorem consumeAll_five_not_sync (b0 b1 b2 b3 b4 : Byte) (s : State) (hp : s.link.pstate = 0#3)
    (h : ¬(b0 = SYNC1 ∧ b1 = SYNC2)) : ∃ t, consumeAll [b0, b1, b2, b3, b4] s = .next t ∧ PeerKept s t := by
  obtain ⟨t, ht, hpeer, hstate⟩ := consumeAll_not_sync b0 b1 s hp h
  have hroom : t.link.pstate.toNat + [b2, b3, b4].length ≤ 4 := Nat.add_le_add_right hstate 3
  obtain ⟨u, hu, hpeer'⟩ := consumeAll_keeps_peer [b2, b3, b4] t hroom
  have hsplit := consumeAll_append [b0, b1] [b2, b3, b4] s
  rw [ht, andThen_next, hu] at hsplit
  exact ⟨u, hsplit, hpeer.trans hpeer'⟩

/-- Settles O18: the parser compares the bytes with what the validity test asks for, in the order of the stream. -/
theorem fiveBytesAcceptedExactlyWhenValid : Obligations.FiveBytesAcceptedExactlyWhenValid := by
  intro s b0 b1 b2 b3 b4 hp
  by_cases hsync : b0 = SYNC1 ∧ b1 = SYNC2
  · obtain ⟨rfl, rfl⟩ := hsync
    refine ⟨_, consumeAll_sync b2 b3 b4 s hp, ?_⟩
    simp only [validFrame_five, true_and]
    split
    · exact ⟨rfl, rfl, rfl, rfl⟩
    · exact ⟨rfl, rfl, rfl⟩
  · obtain ⟨t, ht, hpeer⟩ := consumeAll_five_not_sync b0 b1 b2 b3 b4 s hp hsync
    have hinvalid : ¬validFrame [b0, b1, b2, b3, b4] = true := by
      rw [validFrame_five]
      rintro ⟨h0, h1, -⟩
      exact hsync ⟨h0, h1⟩
    refine ⟨t, ht, ?_⟩
    rw [if_neg hinvalid]
    exact hpeer

end Sys2Proof.Machine
end

section
/-! PROOFS. The heartbeat link's operations one at a time: the row each byte takes (R88 to R97), the sender (R100, R101), the
liveness test (R102 to R104), and what none of them reads or writes (R105). -/

namespace Sys2Proof.Machine

/-! The rows (R88 to R97). -/

/-- A byte consumed in a parser state of known code runs the row that the relation of R69 selects for that code. -/
theorem execConsumeByte_of_code {s : State} {p : BitVec 3} {b : Byte} {r : Row} (hp : s.link.pstate = p)
    (h : RowSelected (b == s.capturedCrc) p b r) : execConsumeByte b s = runRow r b s := by
  subst hp
  exact execConsumeByte_of_selected h

/-- Settles O14: the rows of WaitSync1 and WaitSync2 are told apart by the byte alone. -/
theorem syncBytesTakeTheirRows : Obligations.SyncBytesTakeTheirRows := by
  intro s b
  refine ⟨fun hp => ⟨?_, fun h1 => ?_⟩, fun hp => ⟨?_, ?_, fun h2 h1 => ?_⟩, rfl, rfl, rfl, rfl, rfl⟩
  · exact execConsumeByte_of_code hp .ws1Sync1
  · exact execConsumeByte_of_code hp (.ws1Other h1)
  · exact execConsumeByte_of_code hp .ws2Sync2
  · exact execConsumeByte_of_code hp .ws2Resync
  · exact execConsumeByte_of_code hp (.ws2Other h2 h1)

/-- Settles O15: the rows of CaptureCrc are told apart by the checksum of the captured payload, the other two take any byte. -/
theorem capturedBytesTakeTheirRows : Obligations.CapturedBytesTakeTheirRows := by
  intro s b
  refine ⟨fun hp => ?_, fun hp => ?_, fun hp hcrc => ?_, fun hp hcrc => ?_, rfl, rfl, rfl, rfl⟩
  · exact execConsumeByte_of_code hp .capId
  · exact execConsumeByte_of_code hp .capSeq
  · exact execConsumeByte_of_code hp (.capCrcOk (beq_iff_eq.2 hcrc))
  · exact execConsumeByte_of_code hp (.capCrcBad (beq_eq_false_iff_ne.2 hcrc))

/-- Settles O22: of the two things a consumed byte can do, the other one is to accept a frame. -/
theorem parserReportsOnlyAcceptedFrames : Obligations.ParserReportsOnlyAcceptedFrames := by
  intro s b hp
  obtain ⟨t, ht⟩ := execConsumeByte_isNext b s hp
  refine ⟨t, ht, fun hcrc => ?_⟩
  obtain ⟨p, id, seq, rfl⟩ | ⟨hcode, hb, -⟩ := execConsumeByte_eq_next b s t ht
  · rfl
  · exact absurd ⟨hcode, hb⟩ hcrc

/-! The sender and the liveness test (R100 to R104). -/

/-- `OWN_BYTE` as R37 writes it. -/
theorem ownByte_eq (c : Config) : c.ownByte = if c.own = .a then c.idA else c.idB := by
  unfold Config.ownByte
  cases c.own with
  | a => rfl
  | b => rfl

/-- The sequence counter is a number modulo 256 (R101). -/
theorem byte_add_one_eq (b : Byte) : b + 1 = BitVec.ofNat 8 ((b.toNat + 1) % 256) := by
  apply BitVec.eq_of_toNat_eq
  rw [BitVec.toNat_add, BitVec.toNat_ofNat, Nat.mod_mod]
  rfl

/-- Settles O23: the frame is the encoder's, for this node's byte and the counter before the increment. -/
theorem sendEmitsOneFrame : Obligations.SendEmitsOneFrame := by
  intro s own hown
  rw [← ownByte_eq] at hown
  subst hown
  rw [← byte_add_one_eq]
  rfl

/-- The send condition on integers (R100). -/
theorem sendDue_eq_int (s : State) (t : Time) :
    s.sendDue t = decide ((s.cfg.hbPeriod : Int) ≤ ((t : Int) - s.link.lastTx) % 2 ^ s.cfg.clockWidth) := by
  unfold State.sendDue State.since
  rw [← elapsed_eq_int]
  simp only [Nat.cast_le]

/-- The liveness test on integers (R102). -/
theorem isPeerAlive_eq_int (s : State) (now timeout : Time) :
    s.isPeerAlive now timeout =
      (s.link.peerKnown && decide (((now : Int) - s.link.lastRx) % 2 ^ s.cfg.clockWidth ≤ timeout)) := by
  unfold State.isPeerAlive State.since
  rw [← elapsed_eq_int]
  simp only [Nat.cast_le]

/-- Settles O24: each operation returns its test, whose elapsed time is the difference of R10. -/
theorem sendDueAndPeerAliveReturnTheirTests : Obligations.SendDueAndPeerAliveReturnTheirTests := by
  intro s now timeout
  rw [← sendDue_eq_int, ← isPeerAlive_eq_int]
  exact ⟨rfl, rfl⟩

/-- A silence shorter than one turn of the clock is measured exactly, whether the clock wrapped in it or not (R10, R103). -/
theorem elapsed_of_silence (w : Nat) (start d : Time) (hd : d < 2 ^ w) :
    elapsed w ((start + d) % 2 ^ w) start = d := by
  have hint : ((elapsed w (start + d) start : Nat) : Int) = ((d % 2 ^ w : Nat) : Int) := by
    rw [elapsed_eq_int]
    push_cast
    rw [add_sub_cancel_left]
  rw [elapsed_mod_left, Int.ofNat_inj.1 hint, Nat.mod_eq_of_lt hd]

/-- Settles O25: the test compares the silence itself with the timeout, if the peer is known at all. -/
theorem livenessIsExactAcrossAWrap : Obligations.LivenessIsExactAcrossAWrap := by
  intro s d timeout _ hd
  have halive : s.isPeerAlive ((s.link.lastRx + d) % 2 ^ s.cfg.clockWidth) timeout =
      (s.link.peerKnown && decide (d ≤ timeout)) := by
    unfold State.isPeerAlive State.since
    rw [elapsed_of_silence s.cfg.clockWidth s.link.lastRx d hd]
  rw [halive]
  refine ⟨fun hknown => ?_, fun hunknown => ?_⟩
  · rw [hknown, Bool.true_and]
  · rw [hunknown, Bool.false_and]

/-! The arbitrator and the role (R105). -/

/-- The state with another arbitrator group and another role. -/
def State.withOwnership (arb : Arb) (role : Role) (s : State) : State :=
  { s with arb := arb, ctl.role := role }

/-- A change of the state that commutes with every consumed byte commutes with several. -/
theorem consumeAll_commutes (f : State → State)
    (hf : ∀ b s, execConsumeByte b (f s) = mapNext f (execConsumeByte b s)) (bs : List Byte) (s : State) :
    consumeAll bs (f s) = mapNext f (consumeAll bs s) := by
  induction bs generalizing s with
  | nil => rfl
  | cons b bs ih =>
    rw [consumeAll, hf, consumeAll]
    cases execConsumeByte b s with
    | next t => exact ih t
    | fault _ => rfl
    | refused _ => rfl

theorem runRow_withOwnership (r : Row) (b : Byte) (arb : Arb) (role : Role) (s : State) :
    runRow r b (s.withOwnership arb role) = mapNext (State.withOwnership arb role) (runRow r b s) := by
  cases r <;> rfl

theorem execConsumeByte_withOwnership (arb : Arb) (role : Role) (b : Byte) (s : State) :
    execConsumeByte b (s.withOwnership arb role) = mapNext (State.withOwnership arb role) (execConsumeByte b s) :=
  runRow_withOwnership (s.rowOf b) b arb role s

/-- Settles O21: the rows, the sender and the tests name no register of the arbitrator and no role; a consumed byte and a frame
are made of rows. -/
theorem linkNeitherReadsNorWritesArbitratorOrRole : Obligations.LinkNeitherReadsNorWritesArbitratorOrRole := by
  intro i s arb role hlink
  change exec i (s.withOwnership arb role) = mapNext (State.withOwnership arb role) (exec i s)
  cases i with
  | hbFrame id seq crc =>
    exact consumeAll_commutes _ (execConsumeByte_withOwnership arb role) [SYNC1, SYNC2, id, seq, crc] s
  | consumeByte b => exact execConsumeByte_withOwnership arb role b s
  | ws1Sync1 | ws1Other | ws2Sync2 | ws2Resync | ws2Other | capId | capSeq | capCrcOk | capCrcBad | pstateRsv5
  | pstateRsv67 | send | sendDue | isPeerAlive => rfl
  | crc8 | encode | arbInitialize | claimNoop | claimBegin | claimHold | claimFinish | claimToNone | claimReturn | boot
  | tickStart | drain | sendPhase | eval | evalPrimary | evalStandby | evalTakingover | evalActiveAfterTakeover
  | failoverAck | reset => exact absurd hlink Bool.false_ne_true

end Sys2Proof.Machine
end

section
/-! PROOFS. The parser in its two wait states (R98): a frame met there, and noise, after which the last byte alone says in which
of them the parser is. -/

namespace Sys2Proof.Machine

/-- The parser is in WaitSync1 or WaitSync2. -/
def State.Waiting (s : State) : Prop :=
  s.link.pstate = 0#3 ∨ s.link.pstate = 1#3

/-! A frame (R98, R99). -/

/-- The first sync byte is taken in either wait state (R88, R91). -/
theorem State.Waiting.consumeByte_sync1 {s : State} (h : s.Waiting) :
    execConsumeByte SYNC1 s = .next (s.setPState .waitSync2) := by
  obtain hp | hp := h
  · exact execConsumeByte_sync1 s hp
  · exact execConsumeByte_of_code hp .ws2Resync

/-- Before a first sync byte the two wait states are the same. -/
theorem State.Waiting.consumeAll_sync1 {s : State} (h : s.Waiting) (bs : List Byte) :
    consumeAll (SYNC1 :: bs) s = consumeAll (SYNC1 :: bs) (s.setPState .waitSync1) := by
  rw [consumeAll, consumeAll, h.consumeByte_sync1, execConsumeByte_sync1 (s.setPState .waitSync1) rfl]
  rfl

/-- A valid frame met in either wait state is accepted at its fifth byte. -/
theorem State.Waiting.consumeAll_validFrame {s : State} (h : s.Waiting) (id seq : Byte) :
    consumeAll [SYNC1, SYNC2, id, seq, crc8 [id, seq]] s =
      .next ((s.captured id seq).acceptFrame.setPState .waitSync1) := by
  rw [h.consumeAll_sync1, consumeAll_sync id seq _ (s.setPState .waitSync1) rfl, if_pos rfl]
  rfl

/-- Bytes are consumed from every parser state but a reserved one. -/
theorem consumeAll_isNext (bs : List Byte) (s : State) (h : s.link.pstate < 5#3) : ∃ t, consumeAll bs s = .next t := by
  induction bs generalizing s with
  | nil => exact ⟨s, rfl⟩
  | cons b bs ih =>
    obtain ⟨t, ht⟩ := execConsumeByte_isNext b s h
    obtain ⟨-, -, -, hcode⟩ := execConsumeByte_frame b s t ht
    rw [consumeAll, ht, andThen_next]
    exact ih t hcode

/-- Settles O19: a frame met in WaitSync2 runs as from WaitSync1, and any five bytes are consumed. -/
theorem frameAcceptedFromEitherWaitState : Obligations.FrameAcceptedFromEitherWaitState := by
  intro s id seq crc
  refine ⟨fun hwait => ⟨?_, ?_⟩, consumeAll_isNext _ s⟩
  · exact State.Waiting.consumeAll_validFrame hwait id seq
  · exact (State.Waiting.consumeAll_sync1 hwait _).trans
      (consumeAll_sync_payload id seq (s.setPState .waitSync1) rfl)

/-! Noise (R98, log entry 20). -/

/-- The parser is in a wait state before the first of the bytes and after each. -/
def State.WaitsThroughout (s : State) (bs : List Byte) : Prop :=
  ∀ k ≤ bs.length, ∃ t, consumeAll (bs.take k) s = .next t ∧ t.Waiting

theorem State.WaitsThroughout.waiting {s : State} {bs : List Byte} (h : s.WaitsThroughout bs) : s.Waiting := by
  obtain ⟨t, ht, hwait⟩ := h 0 (Nat.zero_le _)
  cases ht
  exact hwait

theorem State.waitsThroughout_nil (s : State) : s.WaitsThroughout [] ↔ s.Waiting := by
  refine ⟨State.WaitsThroughout.waiting, fun h k _ => ⟨s, ?_, h⟩⟩
  rw [List.take_nil]
  rfl

theorem State.waitsThroughout_cons {s t : State} {b : Byte} (hb : execConsumeByte b s = .next t) (bs : List Byte) :
    s.WaitsThroughout (b :: bs) ↔ s.Waiting ∧ t.WaitsThroughout bs := by
  have hstep (k : Nat) : consumeAll ((b :: bs).take (k + 1)) s = consumeAll (bs.take k) t := by
    rw [List.take_succ_cons, consumeAll, hb, andThen_next]
  constructor
  · intro h
    refine ⟨h.waiting, fun k hk => ?_⟩
    rw [← hstep k]
    exact h (k + 1) (Nat.succ_le_succ hk)
  · rintro ⟨hwait, h⟩ k hk
    cases k with
    | zero => exact ⟨s, rfl, hwait⟩
    | succ k =>
      rw [hstep k]
      exact h k (Nat.le_of_succ_le_succ hk)

/-- The wait state that a byte leaves the parser in when it does not complete the sync pair. -/
def PState.waitAfter (b : Byte) : PState :=
  if b = SYNC1 then .waitSync2 else .waitSync1

theorem waiting_setPState_waitAfter (b : Byte) (s : State) : (s.setPState (.waitAfter b)).Waiting := by
  unfold PState.waitAfter
  split
  · exact .inr rfl
  · exact .inl rfl

/-- In a wait state only the second sync byte, right after the first, leads on (R88 to R92). -/
theorem execConsumeByte_waitAfter (a b : Byte) (s : State) :
    execConsumeByte b (s.setPState (.waitAfter a)) =
      .next (s.setPState (if a = SYNC1 ∧ b = SYNC2 then .captureId else .waitAfter b)) := by
  unfold PState.waitAfter
  by_cases ha : a = SYNC1
  · rw [if_pos ha]
    by_cases h2 : b = SYNC2
    · subst h2
      rw [if_pos ⟨ha, rfl⟩]
      exact execConsumeByte_of_code (p := 1) rfl .ws2Sync2
    · rw [if_neg (fun h => h2 h.2)]
      by_cases h1 : b = SYNC1
      · subst h1
        exact execConsumeByte_of_code (p := 1) rfl .ws2Resync
      · rw [if_neg h1]
        exact execConsumeByte_of_code (p := 1) rfl (.ws2Other h2 h1)
  · rw [if_neg ha, if_neg (fun h => ha h.1)]
    by_cases h1 : b = SYNC1
    · subst h1
      exact execConsumeByte_of_code (p := 0) rfl .ws1Sync1
    · rw [if_neg h1]
      exact execConsumeByte_of_code (p := 0) rfl (.ws1Other h1)

theorem hasSyncPair_cons_cons (a b : Byte) (bs : List Byte) :
    hasSyncPair (a :: b :: bs) = false ↔ ¬(a = SYNC1 ∧ b = SYNC2) ∧ hasSyncPair (b :: bs) = false := by
  rw [hasSyncPair, Bool.or_eq_false_iff, ← Bool.not_eq_true, Bool.and_eq_true, beq_iff_eq, beq_iff_eq]
  rfl

/-- A byte that is no first sync byte makes no pair with what follows. -/
theorem hasSyncPair_cons_of_ne {a : Byte} (ha : a ≠ SYNC1) (bs : List Byte) :
    hasSyncPair (a :: bs) = false ↔ hasSyncPair bs = false := by
  cases bs with
  | nil => exact Iff.rfl
  | cons b bs => exact (hasSyncPair_cons_cons a b bs).trans (and_iff_right fun h => ha h.1)

/-- From the wait state a byte left behind, the parser keeps waiting exactly while that byte and the noise hold no pair. -/
theorem waitsThroughout_iff (a : Byte) (noise : List Byte) (s : State) :
    (s.setPState (.waitAfter a)).WaitsThroughout noise ↔ hasSyncPair (a :: noise) = false := by
  induction noise generalizing a with
  | nil => exact iff_of_true ((State.waitsThroughout_nil _).2 (waiting_setPState_waitAfter a s)) rfl
  | cons b noise ih =>
    rw [State.waitsThroughout_cons (execConsumeByte_waitAfter a b s), hasSyncPair_cons_cons,
      and_iff_right (waiting_setPState_waitAfter a s)]
    by_cases hpair : a = SYNC1 ∧ b = SYNC2
    · rw [if_pos hpair]
      have hleft : ¬(s.setPState .captureId).Waiting := by
        unfold State.Waiting
        rw [State.setPState_link_pstate]
        decide
      exact iff_of_false (fun h => hleft h.waiting) (fun h => h.1 hpair)
    · rw [if_neg hpair, and_iff_right hpair]
      exact ih b

theorem setPState_of_code {s : State} {p : PState} (h : s.link.pstate = p.code) : s.setPState p = s := by
  rw [State.setPState, ← h]

/-- WaitSync1 is the state after any byte but a first sync byte. -/
theorem waitsThroughout_iff_of_waitSync1 (noise : List Byte) (s : State) (hp : s.link.pstate = 0#3) :
    s.WaitsThroughout noise ↔ hasSyncPair noise = false := by
  have hne : (0 : Byte) ≠ SYNC1 := by decide
  have hs : s.setPState (.waitAfter 0) = s := by
    rw [PState.waitAfter, if_neg hne]
    exact setPState_of_code hp
  have hiff := waitsThroughout_iff 0 noise s
  rwa [hs, hasSyncPair_cons_of_ne hne] at hiff

/-- Settles O20: without a pair the noise ends in a wait state, where the frame is accepted. -/
theorem noiseWithoutSyncPairKeepsWaiting : Obligations.NoiseWithoutSyncPairKeepsWaiting := by
  intro s noise hp
  have hiff := waitsThroughout_iff_of_waitSync1 noise s hp
  refine ⟨hiff, fun hnoise id seq => ?_⟩
  obtain ⟨t, ht, hwait⟩ := hiff.2 hnoise noise.length le_rfl
  rw [List.take_length] at ht
  obtain ⟨hlink, -, -⟩ := consumeAll_frame noise s t ht
  have hframe := consumeAll_append noise [SYNC1, SYNC2, id, seq, crc8 [id, seq]] s
  rw [ht, andThen_next, hwait.consumeAll_validFrame id seq] at hframe
  have htick : t.seq.t = s.seq.t := congrArg (·.seq.t) hlink
  exact ⟨_, hframe, rfl, rfl, rfl, htick⟩

end Sys2Proof.Machine
end

section
/-! PROOFS. The bus arbitrator (spec 42): what a claim's break and its finish write, the hold between them, and claims driven
one after another. -/

namespace Sys2Proof.Machine

/-! What a break and a finish write (R108, R110, R122). -/

/-- The arbitrator group that the break of a claim leaves, with the sample it starts the hold at (R108). -/
def Arb.broken (target : Owner) (start : Time) : Arb where
  owner := Owner.none.code
  lineA := false
  lineB := false
  busy := true
  target := target.code
  breakStart := start

/-- The arbitrator group that the finish of a claim leaves: the target's line and the ownership (R110). -/
def Arb.made (arb : Arb) : Arb :=
  { arb with
    owner := arb.target
    lineA := arb.lineA || arb.target == Owner.a.code
    lineB := arb.lineB || arb.target == Owner.b.code
    busy := false }

theorem owner_code_ne_reserved (o : Owner) : o.code ≠ 3#2 := by
  cases o <;> decide

theorem beginClaim_eq (new : Owner) (s : State) :
    s.beginClaim new = { s with arb := Arb.broken new s.now, seq.phase := Phase.claimHold.code } := rfl

theorem claimReturn_eq_ite (s : State) :
    s.claimReturn = { s with
      ctl.takeoverStart := if s.seq.ret = .takeover then s.now else s.ctl.takeoverStart
      seq.phase := Phase.tickStart.code } := by
  unfold State.claimReturn
  cases s.seq.ret with
  | takeover => rfl
  | boot => rfl

theorem makeClaim_eq (s : State) (o : Owner) (h : s.arb.target = o.code) :
    s.makeClaim o = { s with arb := s.arb.made } := by
  obtain ⟨cfg, link, ⟨owner, lineA, lineB, busy, target, breakStart⟩, ctl, seq, env, moves, result⟩ := s
  cases h
  cases o <;> simp [State.makeClaim, State.setLine, State.setBusy, Arb.made, Owner.code]

/-- The finish asks of the state only that it reads a target (R110, R74). -/
theorem execClaimFinish_eq (s : State) (h : s.arb.target ≠ 3#2) :
    execClaimFinish s = .next { s with arb := s.arb.made }.claimReturn := by
  obtain ⟨o, ho⟩ : ∃ o, Owner.ofCode s.arb.target = some o :=
    Option.ne_none_iff_exists'.1 fun hnone => h ((Owner.ofCode_eq_none _).1 hnone)
  unfold execClaimFinish
  rw [ho, ← makeClaim_eq s o ((Owner.ofCode_eq_some _ _).1 ho)]

theorem execClaimNoop_of_owner (new o : Owner) (s : State) (h : s.arb.owner = o.code) :
    execClaimNoop new s = .next s := by
  unfold execClaimNoop
  rw [h, Owner.ofCode_code]

/-- A claim by the owner of the bus writes nothing (R107). -/
theorem claim_of_owner (new : Owner) (s : State) (h : s.arb.owner = new.code) : claim new s = .next s :=
  (claim_eq_next new s s).2 (.inl ⟨h, rfl⟩)

/-- Settles O26: the four named writes of INITIALIZE, read off its definition. -/
theorem initializeMakesTheArbitratorIdle : Obligations.InitializeMakesTheArbitratorIdle :=
  fun _ => rfl

/-- Settles O27: both operations read an owner, and it is the operand. -/
theorem claimByTheOwnerDoesNothing : Obligations.ClaimByTheOwnerDoesNothing := by
  intro s new h
  have howner : s.arb.owner = new.code := h.trans (by cases new <;> rfl)
  exact ⟨execClaimNoop_of_owner new new s howner, claim_of_owner new s howner⟩

/-- Settles O28: of the two things a claim can do, the break is what is left when its operand is not the owner. -/
theorem claimBeginBreaksBothLines : Obligations.ClaimBeginBreaksBothLines := by
  intro s new code hcode
  obtain rfl : code = new.code := hcode.trans (by cases new <;> rfl)
  refine ⟨?_, rfl, fun hother hlegal => ?_⟩
  · exact congrArg Host.Outcome.next (beginClaim_eq new s)
  · exact (claim_eq_next new s _).2 (.inr ⟨hother, hlegal, rfl⟩)

/-! The hold (R109). -/

/-- The end of the hold on integers (R10). -/
theorem holdElapsed_iff (s : State) :
    s.holdElapsed = true ↔ (s.cfg.bbm : Int) ≤ ((s.env.clkMs : Int) - s.arb.breakStart) % 2 ^ s.cfg.clockWidth := by
  unfold State.holdElapsed State.since State.now
  rw [elapsed_mod_left, ← elapsed_eq_int, decide_eq_true_iff, Nat.cast_le]

/-- In the hold of a claim the clock decides what the core's turn is (R109, R110). -/
theorem coreTurn_of_claimHold (s : State) (hr : s.env.resetPin = false) (hcodes : CodesLegal s)
    (hp : s.seq.phase = Phase.claimHold.code) :
    coreTurn s = if s.holdElapsed then execClaimFinish s else .next s := by
  obtain ⟨hpstate, howner, htarget, -⟩ := hcodes
  rw [coreTurn_eq_exec s .claimHold hr hp hpstate howner htarget, State.phaseInstr]
  split
  · rfl
  · rfl

theorem runSteps_of_waiting (s : State) (h : step s = .next s) (n : Nat) : runSteps n s = .next s := by
  induction n with
  | zero => rfl
  | succ n ih => rw [runSteps, h, andThen_next, ih]

/-- Settles O29: before the hold has elapsed the core's turn is a wait, and a wait may be repeated. -/
theorem holdWaitsForTheClock : Obligations.HoldWaitsForTheClock := by
  intro s n
  refine ⟨rfl, fun hr hm hcodes hp hshort => runSteps_of_waiting s ?_ n⟩
  have hwait : ¬s.holdElapsed = true := fun h => not_le.2 hshort ((holdElapsed_iff s).1 h)
  rw [step_of_no_moves s hm, coreTurn_of_claimHold s hr hcodes hp, if_neg hwait]

/-- Settles O30: the finish is the target's line and ownership, then the return; with the hold elapsed it is the core's
turn. -/
theorem claimFinishMakesAndReturns : Obligations.ClaimFinishMakesAndReturns := by
  intro s htarget
  refine ⟨?_, ?_, fun hr hm hcodes hp hlong => ?_⟩
  · refine (execClaimFinish_eq s htarget).trans (congrArg Host.Outcome.next ?_)
    exact claimReturn_eq_ite { s with arb := s.arb.made }
  · exact congrArg Host.Outcome.next (claimReturn_eq_ite s)
  · rw [step_of_no_moves s hm, coreTurn_of_claimHold s hr hcodes hp, if_pos ((holdElapsed_iff s).2 hlong)]
    rfl

/-- A hold that starts with the break has elapsed after any advance of the clock of at least its duration, across a wrap or
not. -/
theorem holdElapsed_beginClaim_clockAdvance (new : Owner) (s : State) (d : Time) (hd : s.cfg.bbm ≤ d)
    (hw : d < 2 ^ s.cfg.clockWidth) : ((s.beginClaim new).clockAdvance d).holdElapsed = true := by
  have hsince : elapsed s.cfg.clockWidth ((s.env.clkMs + d) % 2 ^ s.cfg.clockWidth) s.now = d := by
    rw [← Nat.mod_add_mod]
    exact elapsed_of_silence s.cfg.clockWidth s.now d hw
  have hnow : ((s.beginClaim new).clockAdvance d).since ((s.beginClaim new).clockAdvance d).now s.now = d :=
    (elapsed_mod_left _ _ _).trans hsince
  unfold State.holdElapsed
  exact decide_eq_true (hnow.symm ▸ hd)

theorem runSteps_clock_core (s : State) (d : Time) :
    runSteps 2 { s with moves := [.clock d, .core] } = coreTurn ({ s with moves := [] }.clockAdvance d) := by
  have hcore : step { s.clockAdvance d with moves := [.core] } = coreTurn ({ s with moves := [] }.clockAdvance d) := rfl
  have hrun : runSteps 2 { s with moves := [.clock d, .core] } =
      andThen (step { s.clockAdvance d with moves := [.core] }) .next := rfl
  rw [hrun, hcore]
  cases coreTurn ({ s with moves := [] }.clockAdvance d) <;> rfl

/-- Once the clock has moved to the end of the hold, the core's turn is the finish. -/
theorem runSteps_clock_core_of_claimHold (s : State) (d : Time) (hr : s.env.resetPin = false) (hcodes : CodesLegal s)
    (hp : s.seq.phase = Phase.claimHold.code) (helapsed : (s.clockAdvance d).holdElapsed = true) :
    runSteps 2 { s with moves := [.clock d, .core] } = execClaimFinish ({ s with moves := [] }.clockAdvance d) := by
  have hturn : coreTurn ({ s with moves := [] }.clockAdvance d) = if (s.clockAdvance d).holdElapsed then _ else _ :=
    coreTurn_of_claimHold ({ s with moves := [] }.clockAdvance d) hr hcodes hp
  rw [runSteps_clock_core, hturn, if_pos helapsed]

/-- Settles O31: a broken claim to None holds, and its finish energizes the line of no one. -/
theorem claimToNoneEndsWithNoLine : Obligations.ClaimToNoneEndsWithNoLine := by
  intro s d _ hpstate hr hd hw
  have hnone := owner_code_ne_reserved .none
  have hcodes : CodesLegal (s.beginClaim .none) :=
    ⟨hpstate, hnone, hnone, (by decide : Phase.claimHold.code < 6#3)⟩
  have hrun := runSteps_clock_core_of_claimHold (s.beginClaim .none) d hr hcodes rfl
    (holdElapsed_beginClaim_clockAdvance .none s d hd hw)
  rw [execClaimFinish_eq _ hnone, claimReturn_eq_ite] at hrun
  exact ⟨s.beginClaim .none, _, rfl, rfl, rfl, rfl, hrun, rfl, rfl, rfl, rfl, rfl⟩

/-! Claims run to completion (R113, R116). -/

/-- The state after a claim that broke and finished with the clock at `t`. -/
def State.completeClaim (new : Owner) (t : Time) (s : State) : State :=
  { s.beginClaim new with arb := (Arb.broken new s.now).made, env.clkMs := t }.claimReturn

theorem completeClaim_arb (new : Owner) (t : Time) (s : State) :
    (s.completeClaim new t).arb = (Arb.broken new s.now).made := by
  unfold State.completeClaim
  rw [claimReturn_eq_ite]

theorem execClaimFinish_beginClaim (new : Owner) (t : Time) (s : State) :
    execClaimFinish { s.beginClaim new with env.clkMs := t } = .next (s.completeClaim new t) :=
  execClaimFinish_eq { s.beginClaim new with env.clkMs := t } (owner_code_ne_reserved new)

/-- Settles O32: a completed claim leaves its target as the owner. -/
theorem secondClaimIsANoOp : Obligations.SecondClaimIsANoOp := by
  intro s x t
  have howner : (s.completeClaim x t).arb.owner = x.code := by rw [completeClaim_arb]; rfl
  exact ⟨s.beginClaim x, s.completeClaim x t, rfl, execClaimFinish_beginClaim x t s, howner, claim_of_owner x _ howner,
    execClaimNoop_of_owner x x _ howner⟩

/-- Between two claims: no claim in progress, and the lines follow a legal owner. -/
def BetweenClaims (s : State) : Prop :=
  s.arb.busy = false ∧ s.arb.owner ≠ 3#2 ∧ LinesMatchOwner s

theorem completeClaim_betweenClaims (new : Owner) (t : Time) (s : State) : BetweenClaims (s.completeClaim new t) := by
  unfold BetweenClaims LinesMatchOwner
  rw [completeClaim_arb]
  refine ⟨rfl, owner_code_ne_reserved new, fun _ => ?_, fun hb => nomatch hb⟩
  simp [Arb.made, Arb.broken]

/-- The break leaves both lines low. -/
theorem beginClaim_notBothLines (new : Owner) (s : State) : NotBothLines (s.beginClaim new) :=
  fun ⟨ha, _⟩ => Bool.false_ne_true ha

/-- A claim by the owner has one instant. -/
theorem claimInstants_of_owner (new : Owner) (t : Time) (rest : List (Owner × Time)) (s : State) (hb : s.arb.busy = false)
    (h : s.arb.owner = new.code) : claimInstants ((new, t) :: rest) s = s :: claimInstants rest s := by
  simp only [claimInstants, claim_of_owner new s h, hb, Bool.false_eq_true, if_false]

/-- A claim that breaks has two instants: the break and the finish. -/
theorem claimInstants_of_break (new : Owner) (t : Time) (rest : List (Owner × Time)) (s : State)
    (h : claim new s = .next (s.beginClaim new)) :
    claimInstants ((new, t) :: rest) s =
      s.beginClaim new :: s.completeClaim new t :: claimInstants rest (s.completeClaim new t) := by
  have hbusy : (s.beginClaim new).arb.busy = true := rfl
  simp only [claimInstants, h, hbusy, if_true, execClaimFinish_beginClaim]

/-- By induction on the claims: each starts between claims and ends there. -/
theorem claimInstants_of_betweenClaims (claims : List (Owner × Time)) (s : State) (hs : BetweenClaims s) :
    claims.length ≤ (claimInstants claims s).length ∧ ∀ t ∈ claimInstants claims s, NotBothLines t := by
  induction claims generalizing s with
  | nil => exact ⟨le_rfl, fun _ h => nomatch h⟩
  | cons c rest ih =>
    obtain ⟨new, t⟩ := c
    have ⟨hidle, howner, hlines⟩ := hs
    by_cases hown : s.arb.owner = new.code
    · obtain ⟨hlen, hsafe⟩ := ih s hs
      rw [claimInstants_of_owner new t rest s hidle hown, List.forall_mem_cons]
      exact ⟨Nat.succ_le_succ hlen, hlines.notBothLines, hsafe⟩
    · have hdone := completeClaim_betweenClaims new t s
      have ⟨_, _, hdoneLines⟩ := hdone
      obtain ⟨hlen, hsafe⟩ := ih (s.completeClaim new t) hdone
      have hbreak := (claim_eq_next new s _).2 (.inr ⟨hown, howner, rfl⟩)
      rw [claimInstants_of_break new t rest s hbreak, List.forall_mem_cons, List.forall_mem_cons]
      exact ⟨Nat.le_succ_of_le (Nat.succ_le_succ hlen), beginClaim_notBothLines new s, hdoneLines.notBothLines, hsafe⟩

/-- Settles O33: an idle arbitrator whose lines match its owner is between claims. -/
theorem anySequenceOfClaimsDrivesAtMostOneLine : Obligations.AnySequenceOfClaimsDrivesAtMostOneLine :=
  fun claims s hidle howner hlines => claimInstants_of_betweenClaims claims s ⟨hidle, howner, hlines⟩

end Sys2Proof.Machine
end

section
/-! PROOFS. What one step can do to the arbitrator (R112, R115): leave it, take both lines low for good, break for a claim, or
finish the claim whose hold has elapsed. -/

namespace Sys2Proof.Machine

/-- All that a step from `s` to `t` can do to the arbitrator and to the hold. -/
inductive ArbStep (s t : State) : Prop where
  /-- nothing, and a hold neither starts nor ends -/
  | kept (harb : t.arb = s.arb) (hphase : t.seq.phase = Phase.claimHold.code ↔ s.seq.phase = Phase.claimHold.code)
  /-- both lines are low and no claim is in progress: a reset, or the boot of a secondary -/
  | released (ha : t.arb.lineA = false) (hb : t.arb.lineB = false) (hphase : t.seq.phase ≠ Phase.claimHold.code)
  /-- the break of a claim, at a sample of the clock -/
  | broken (target : Owner) (hs : s.seq.phase ≠ Phase.claimHold.code) (harb : t.arb = Arb.broken target s.now)
      (hphase : t.seq.phase = Phase.claimHold.code)
  /-- the finish of a claim, at the end of its hold -/
  | made (hs : s.seq.phase = Phase.claimHold.code) (helapsed : s.holdElapsed = true) (harb : t.arb = s.arb.made)
      (hphase : t.seq.phase = Phase.tickStart.code)

/-- The moves still to come make no difference. -/
theorem ArbStep.of_with_moves {s t : State} {moves : List Move} (h : ArbStep { s with moves := moves } t) :
    ArbStep s t := by
  cases h with
  | kept harb hphase => exact .kept harb hphase
  | released ha hb hphase => exact .released ha hb hphase
  | broken target hs harb hphase => exact .broken target hs harb hphase
  | made hs helapsed harb hphase => exact .made hs helapsed harb hphase

/-- A move that writes neither the arbitrator nor `PHASE`. -/
theorem ArbStep.of_same {s t : State} (harb : t.arb = s.arb) (hseq : t.seq = s.seq) : ArbStep s t :=
  .kept harb (by rw [hseq])

/-- An operation of a tick that begins no claim. -/
theorem ArbStep.of_inTick {s t : State} (harb : t.arb = s.arb) (hs : InTick s) (ht : InTick t) : ArbStep s t := by
  obtain ⟨-, hs, -⟩ := hs
  obtain ⟨-, ht, -⟩ := ht
  exact .kept harb (iff_of_false ht hs)

theorem ArbStep.setPhase {s t : State} (p : Phase) (harb : t.arb = s.arb) (hs : InTick s) (hboot : p ≠ .boot)
    (hhold : p ≠ .claimHold) : ArbStep s (t.setPhase p) :=
  .of_inTick harb hs (inTick_of_phase rfl hboot hhold)

/-- BOOT breaks for the primary's claim and leaves the secondary's lines low (R121). -/
theorem execBoot_arbStep (s t : State) (hp : s.seq.phase = Phase.boot.code) (h : execBoot s = .next t) : ArbStep s t := by
  simp only [execBoot] at h
  split at h
  · obtain ⟨hown, -⟩ | ⟨-, -, rfl⟩ := (claim_eq_next _ _ t).1 h
    · exact absurd hown.symm (self_code_ne_none s.cfg)
    · exact .broken s.cfg.self (by rw [hp]; decide) rfl rfl
  · obtain ⟨m, hm, hmt⟩ := (andThen_eq_next _ _ _).1 h
    cases hmt
    obtain ⟨-, rfl⟩ | ⟨hown, -⟩ := (claim_eq_next .none s.bootRegisters m).1 hm
    · exact .released rfl rfl (by decide : Phase.tickStart.code ≠ Phase.claimHold.code)
    · exact absurd rfl hown

theorem execConsumeByte_arb_seq (b : Byte) (s t : State) (h : execConsumeByte b s = .next t) :
    t.arb = s.arb ∧ t.seq = s.seq := by
  obtain ⟨hframe, -⟩ := execConsumeByte_frame b s t h
  rw [hframe]
  exact ⟨rfl, rfl⟩

theorem execDrain_arbStep (s t : State) (hs : InTick s) (h : execDrain s = .next t) : ArbStep s t := by
  cases hq : s.env.rxQueue with
  | nil =>
    unfold execDrain at h
    rw [State.rxPop_nil s hq] at h
    cases h
    exact .setPhase .send rfl hs (by decide) (by decide)
  | cons b rest =>
    rw [execDrain_cons s b rest hq] at h
    obtain ⟨harb, hseq⟩ := execConsumeByte_arb_seq b _ t h
    exact .of_same harb hseq

theorem execSendPhase_arbStep (s t : State) (hs : InTick s) (h : execSendPhase s = .next t) : ArbStep s t := by
  unfold execSendPhase at h
  cases h
  split
  · exact .setPhase (t := s.sendFrame) .eval rfl hs (by decide) (by decide)
  · exact .setPhase .eval rfl hs (by decide) (by decide)

/-- A due takeover is the break of the claim, or nothing when this node owns the bus already (R129, R107). -/
theorem execEvalStandby_arbStep (s t : State) (hs : InTick s) (h : execEvalStandby s = .next t) : ArbStep s t := by
  unfold execEvalStandby at h
  split at h
  · obtain ⟨-, rfl⟩ | ⟨-, -, rfl⟩ := (claim_eq_next _ _ t).1 h
    · exact .kept rfl Iff.rfl
    · obtain ⟨-, hnotHold, -⟩ := hs
      exact .broken s.cfg.self hnotHold rfl rfl
  · cases h
    exact .setPhase .tickStart rfl hs (by decide) (by decide)

theorem execEval_arbStep (s t : State) (hs : InTick s) (h : execEval s = .next t) : ArbStep s t := by
  unfold execEval at h
  split at h
  · cases h
    exact .setPhase .tickStart rfl hs (by decide) (by decide)
  · exact execEvalStandby_arbStep s t hs h
  · unfold execEvalTakingover at h
    cases h
    split
    · exact .setPhase (t := { s with ctl.role := .activeAfterTakeover }) .tickStart rfl hs (by decide) (by decide)
    · exact .setPhase .tickStart rfl hs (by decide) (by decide)
  · cases h
    exact .setPhase .tickStart rfl hs (by decide) (by decide)

theorem execClaimFinish_arbStep (s t : State) (hp : s.seq.phase = Phase.claimHold.code) (helapsed : s.holdElapsed = true)
    (h : execClaimFinish s = .next t) : ArbStep s t := by
  have htarget : s.arb.target ≠ 3#2 := fun hres => by
    rw [execClaimFinish_of_reserved s hres] at h
    cases h
  rw [execClaimFinish_eq s htarget, claimReturn_eq_ite] at h
  cases h
  exact .made hp helapsed rfl rfl

/-- Under `RESET` the core waits; otherwise its phase says which operation runs. -/
theorem coreTurn_arbStep (s t : State) (h : coreTurn s = .next t) : ArbStep s t := by
  cases hpin : s.env.resetPin with
  | true =>
    unfold coreTurn at h
    rw [if_pos hpin] at h
    cases h
    exact .of_same rfl rfl
  | false =>
    obtain ⟨p, hp, hexec⟩ := coreTurn_eq_next s t hpin h
    cases p with
    | boot => exact execBoot_arbStep s t hp hexec
    | tickStart =>
      cases hexec
      exact .setPhase (t := { s with seq.t := s.now }) .drain rfl (inTick_of_phase hp (by decide) (by decide)) (by decide)
        (by decide)
    | drain => exact execDrain_arbStep s t (inTick_of_phase hp (by decide) (by decide)) hexec
    | send => exact execSendPhase_arbStep s t (inTick_of_phase hp (by decide) (by decide)) hexec
    | eval => exact execEval_arbStep s t (inTick_of_phase hp (by decide) (by decide)) hexec
    | claimHold =>
      simp only [State.phaseInstr] at hexec
      split at hexec
      · next helapsed => exact execClaimFinish_arbStep s t hp helapsed hexec
      · cases hexec
        exact .of_same rfl rfl

/-- A reset leaves both lines low and BOOT next (R155). -/
theorem resetRegisters_arbStep (s u : State) : ArbStep s u.resetRegisters :=
  .released rfl rfl (by decide : Phase.boot.code ≠ Phase.claimHold.code)

theorem configureMove_arbStep (c : Config) (s t : State) (h : configureMove c s = .next t) : ArbStep s t := by
  unfold configureMove at h
  split at h
  · cases h
    exact resetRegisters_arbStep s _
  · cases h

theorem takeMove_arbStep (m : Move) (s t : State) (h : takeMove m s = .next t) : ArbStep s t := by
  cases m with
  | core => exact coreTurn_arbStep s t h
  | clock d => cases h; exact .of_same rfl rfl
  | receive b => cases h; exact .of_same (s.rxArrive_arb b) (s.rxArrive_seq b)
  | transmit => cases h; exact .of_same s.txLeave_arb s.txLeave_seq
  | ack => cases h; exact .of_same rfl rfl
  | assertReset => cases h; exact resetRegisters_arbStep s { s with env.resetPin := true }
  | releaseReset => cases h; exact .of_same rfl rfl
  | configure c => exact configureMove_arbStep c s t h

theorem step_arbStep (s t : State) (h : step s = .next t) : ArbStep s t := by
  unfold step takeTurn at h
  split at h
  · exact coreTurn_arbStep s t h
  · next m rest _ => exact (takeMove_arbStep m { s with moves := rest } t h).of_with_moves

/-- In the hold of a claim both lines are low (R114). -/
theorem Inv.lines_low_of_claimHold {s : State} (h : Inv s) (hp : s.seq.phase = Phase.claimHold.code) :
    s.arb.lineA = false ∧ s.arb.lineB = false := by
  obtain ⟨-, -, ⟨-, hbusyLines⟩, ⟨hholdBusy, -⟩, -⟩ := h
  obtain ⟨ha, hb, -, -⟩ := hbusyLines (hholdBusy hp)
  exact ⟨ha, hb⟩

/-- A line that goes high. -/
def LineRises (s t : State) : Prop :=
  s.arb.lineA = false ∧ t.arb.lineA = true ∨ s.arb.lineB = false ∧ t.arb.lineB = true

/-- No line is high after a step that takes both low. -/
theorem not_lineRises_of_lines_low {s t : State} (ha : t.arb.lineA = false) (hb : t.arb.lineB = false) :
    ¬LineRises s t := by
  simp [LineRises, ha, hb]

/-- Only the finish of a claim makes a line rise (R115). -/
theorem ArbStep.finish_of_lineRises {s t : State} (h : ArbStep s t) (hrise : LineRises s t) :
    s.seq.phase = Phase.claimHold.code ∧ s.holdElapsed = true := by
  cases h with
  | kept harb _ => simp [LineRises, harb] at hrise
  | released ha hb _ => exact absurd hrise (not_lineRises_of_lines_low ha hb)
  | broken _ _ harb _ => exact absurd hrise (not_lineRises_of_lines_low (by rw [harb]; rfl) (by rw [harb]; rfl))
  | made hs helapsed _ _ => exact ⟨hs, helapsed⟩

/-- The hold keeps the sample it started at. -/
theorem ArbStep.breakStart_kept {s t : State} (h : ArbStep s t) (hs : s.seq.phase = Phase.claimHold.code)
    (ht : t.seq.phase = Phase.claimHold.code) : t.arb.breakStart = s.arb.breakStart := by
  cases h with
  | kept harb _ => rw [harb]
  | released _ _ hphase => exact absurd ht hphase
  | broken _ hnotHold _ _ => exact absurd hs hnotHold
  | made _ _ _ hphase => exact absurd (hphase.symm.trans ht) (by decide)

/-- A hold is entered by a break only. -/
theorem ArbStep.break_of_entry {s t : State} (h : ArbStep s t) (hs : s.seq.phase ≠ Phase.claimHold.code)
    (ht : t.seq.phase = Phase.claimHold.code) : ∃ target, t.arb = Arb.broken target s.now := by
  cases h with
  | kept _ hphase => exact absurd (hphase.1 ht) hs
  | released _ _ hphase => exact absurd ht hphase
  | broken target _ harb _ => exact ⟨target, harb⟩
  | made hhold _ _ _ => exact absurd hhold hs

/-- Settles O34: a step that raises a line is a finish, one that enters the hold is a break, and in between both lines are low
by the invariant. -/
theorem lineRisesOnlyAfterTheHold : Obligations.LineRisesOnlyAfterTheHold := by
  intro s t hinv hstep
  have harb := step_arbStep s t hstep
  refine ⟨fun hrise => ?_, harb.breakStart_kept, fun hs ht => ?_⟩
  · obtain ⟨hhold, helapsed⟩ := harb.finish_of_lineRises hrise
    obtain ⟨ha, hb⟩ := hinv.lines_low_of_claimHold hhold
    exact ⟨hhold, ha, hb, (holdElapsed_iff s).1 helapsed⟩
  · obtain ⟨target, hbroken⟩ := harb.break_of_entry hs ht
    rw [hbroken]
    exact ⟨rfl, rfl, rfl⟩

end Sys2Proof.Machine
end

section
/-! PROOFS. What the operations of the failover controller (spec 43) do, one equation for each: BOOT, the phases of a tick, the
role machine, and the host's acknowledgement. -/

namespace Sys2Proof.Machine

/-- `SELF` as a code (R37, R72). -/
theorem self_code_eq (c : Config) : c.self.code = if c.own = .a then 1#2 else 2#2 := by
  unfold Config.self
  cases c.own with
  | a => rfl
  | b => rfl

/-- A claim by another than the owner of the bus is the break (R108). -/
theorem claim_of_not_owner (new : Owner) (s : State) (hother : s.arb.owner ≠ new.code) (hlegal : s.arb.owner ≠ 3#2) :
    claim new s = .next (s.beginClaim new) :=
  (claim_eq_next new s _).2 (.inr ⟨hother, hlegal, rfl⟩)

/-! BOOT (R121). -/

theorem bootRegisters_eq (s : State) :
    s.bootRegisters = { s with
      link.pstate := PState.waitSync1.code, link.peerKnown := false, link.txSeq := 0x00#8, link.lastTx := s.now
      arb := { owner := Owner.none.code, lineA := false, lineB := false, busy := false, target := Owner.none.code
               breakStart := s.arb.breakStart }
      ctl.role := s.cfg.initialRole, ctl.failoverFlag := false, ctl.bootTime := s.now } := rfl

/-- The entry claim of the primary finds the bus without an owner. -/
theorem execBoot_primary (s : State) (h : s.cfg.own = .a) :
    execBoot s = .next ({ s.bootRegisters with seq.ret := .boot }.beginClaim .a) := by
  have hrole : s.bootRegisters.ctl.role = .primaryActive := (initialRole_eq_primaryActive s.cfg).2 h
  have hself : s.cfg.self = .a := by unfold Config.self; rw [h]; rfl
  simp only [execBoot]
  rw [if_pos hrole, hself]
  exact claim_of_not_owner .a _ (by decide : Owner.none.code ≠ Owner.a.code) (owner_code_ne_reserved .none)

/-- The entry claim of the secondary, for None, is a no-op. -/
theorem execBoot_secondary (s : State) (h : s.cfg.own = .b) :
    execBoot s = .next (s.bootRegisters.setPhase .tickStart) := by
  have hrole : s.bootRegisters.ctl.role ≠ .primaryActive := fun hp => by
    have hown := (initialRole_eq_primaryActive s.cfg).1 hp
    rw [h] at hown
    cases hown
  simp only [execBoot]
  rw [if_neg hrole, claim_of_owner .none s.bootRegisters rfl, andThen_next]

/-- Settles O35: the identity fixes the role, and the role its entry claim. -/
theorem bootWritesRegistersAndClaims : Obligations.BootWritesRegistersAndClaims := by
  intro s
  refine ⟨fun ha => (execBoot_primary s ha).trans ?_, fun hb => (execBoot_secondary s hb).trans ?_⟩
  · have hrole : s.cfg.initialRole = .primaryActive := (initialRole_eq_primaryActive s.cfg).2 ha
    rw [bootRegisters_eq, hrole]
    rfl
  · have hrole : s.cfg.initialRole = .standbyPassive := by simp [Config.initialRole, PRIMARY, hb]
    rw [bootRegisters_eq, hrole]
    rfl

/-! The phases of a tick (R123 to R125). -/

/-- Settles O37: the two writes of TICK_START, read off its definition. -/
theorem tickStartSamplesTheClock : Obligations.TickStartSamplesTheClock :=
  fun _ => rfl

/-- DRAIN of an empty queue ends the drain (R124). -/
theorem execDrain_nil (s : State) (hq : s.env.rxQueue = []) : execDrain s = .next (s.setPhase .send) := by
  unfold execDrain
  rw [State.rxPop_nil s hq]

/-- Settles O38: a drained byte touches what a consumed byte touches, and the queue. -/
theorem drainConsumesOneByteOrEnds : Obligations.DrainConsumesOneByteOrEnds := by
  intro s
  refine ⟨execDrain_nil s, fun b rest hq => ?_⟩
  have hdrain : exec .drain s = execConsumeByte b { s with env.rxQueue := rest } := execDrain_cons s b rest hq
  refine ⟨hdrain, fun hp => ?_⟩
  obtain ⟨t, ht⟩ := execConsumeByte_isNext b { s with env.rxQueue := rest } hp
  obtain ⟨hframe, hseq, htx, -⟩ := execConsumeByte_frame b _ t ht
  exact ⟨t, hdrain.trans ht, hframe, hseq, htx⟩

theorem execSendPhase_of_due (s : State) (h : s.sendDue s.seq.t = true) :
    execSendPhase s = .next (s.sendFrame.setPhase .eval) := by
  unfold execSendPhase
  rw [if_pos h]

theorem execSendPhase_of_not_due (s : State) (h : ¬s.sendDue s.seq.t = true) :
    execSendPhase s = .next (s.setPhase .eval) := by
  unfold execSendPhase
  rw [if_neg h]

/-- Settles O39: the condition of SEND_PHASE is the send condition at the tick sample, on integers. -/
theorem sendPhaseSendsWhenDue : Obligations.SendPhaseSendsWhenDue := by
  intro s
  have hiff := sendDue_eq_int s s.seq.t
  refine ⟨fun hdue => ⟨s.sendFrame, rfl, ?_⟩, fun hshort => ?_⟩
  · exact execSendPhase_of_due s (hiff.trans (decide_eq_true hdue))
  · have hnot : s.sendDue s.seq.t = false := hiff.trans (decide_eq_false (not_le.2 hshort))
    exact execSendPhase_of_not_due s (Bool.eq_false_iff.1 hnot)

/-! The role machine (R126 to R131). -/

/-- The takeover condition of R128 on integers. -/
theorem takeoverDue_iff (s : State) :
    s.takeoverDue s.seq.t = true ↔
      ¬(s.link.peerKnown = true ∧ ((s.seq.t : Int) - s.link.lastRx) % 2 ^ s.cfg.clockWidth ≤ s.cfg.peerTimeout) ∧
        (s.link.peerKnown = true ∨ s.cfg.bootGrace = false ∨
          (s.cfg.peerTimeout : Int) < ((s.seq.t : Int) - s.ctl.bootTime) % 2 ^ s.cfg.clockWidth) := by
  unfold State.takeoverDue
  rw [isPeerAlive_eq_int, State.since, ← elapsed_eq_int _ s.seq.t s.ctl.bootTime]
  simp only [Nat.cast_lt, Bool.and_eq_true, Bool.or_eq_true, Bool.not_eq_true', Bool.and_eq_false_imp,
    decide_eq_true_eq, decide_eq_false_iff_not, or_assoc, not_and]

/-- The settle delay on integers (R130). -/
theorem settleElapsed_iff (s : State) :
    s.settleElapsed = true ↔
      (s.cfg.settle : Int) ≤ ((s.seq.t : Int) - s.ctl.takeoverStart) % 2 ^ s.cfg.clockWidth := by
  unfold State.settleElapsed State.since
  rw [← elapsed_eq_int, decide_eq_true_iff, Nat.cast_le]

/-- The state in which a due takeover claims the bus (R129). -/
def State.takingOver (s : State) : State :=
  { s with ctl.role := .takingOver, ctl.failoverFlag := true, seq.ret := .takeover }

theorem execEvalStandby_of_due (s : State) (h : s.takeoverDue s.seq.t = true) :
    execEvalStandby s = claim s.cfg.self s.takingOver :=
  if_pos h

theorem execEvalStandby_of_not_due (s : State) (h : ¬s.takeoverDue s.seq.t = true) :
    execEvalStandby s = .next (s.setPhase .tickStart) :=
  if_neg h

theorem execEvalTakingover_of_elapsed (s : State) (h : s.settleElapsed = true) :
    execEvalTakingover s = .next ({ s with ctl.role := .activeAfterTakeover }.setPhase .tickStart) := by
  unfold execEvalTakingover
  rw [if_pos h]

theorem execEvalTakingover_of_not_elapsed (s : State) (h : ¬s.settleElapsed = true) :
    execEvalTakingover s = .next (s.setPhase .tickStart) := by
  unfold execEvalTakingover
  rw [if_neg h]

/-- Settles O41: due, the claim for this node begins, as it is not the owner; not due, the tick ends. -/
theorem standbyTakesOverExactlyWhenDue : Obligations.StandbyTakesOverExactlyWhenDue := by
  intro s due hdue
  rw [← takeoverDue_iff] at hdue
  refine ⟨fun h hother hlegal => ?_, fun h => execEvalStandby_of_not_due s (mt hdue.2 h)⟩
  rw [← self_code_eq] at hother
  have hclaim : exec .evalStandby s = .next (s.takingOver.beginClaim s.cfg.self) :=
    (execEvalStandby_of_due s (hdue.1 h)).trans (claim_of_not_owner s.cfg.self s.takingOver hother hlegal)
  rw [hclaim, beginClaim_eq, Arb.broken, self_code_eq]
  rfl

/-- Settles O42: the settle delay has elapsed or has not. -/
theorem takingOverEndsAfterTheSettleDelay : Obligations.TakingOverEndsAfterTheSettleDelay := by
  intro s
  refine ⟨fun h => execEvalTakingover_of_elapsed s ((settleElapsed_iff s).2 h), fun h => ?_⟩
  exact execEvalTakingover_of_not_elapsed s fun hs => not_le.2 h ((settleElapsed_iff s).1 hs)

/-! EVAL is the evaluation of the role held (R126). -/

theorem execEval_primary {s : State} (h : s.ctl.role = .primaryActive) : execEval s = execEvalPrimary s := by
  unfold execEval
  rw [h]

theorem execEval_standby {s : State} (h : s.ctl.role = .standbyPassive) : execEval s = execEvalStandby s := by
  unfold execEval
  rw [h]

theorem execEval_takingOver {s : State} (h : s.ctl.role = .takingOver) : execEval s = execEvalTakingover s := by
  unfold execEval
  rw [h]

theorem execEval_afterTakeover {s : State} (h : s.ctl.role = .activeAfterTakeover) :
    execEval s = execEvalActiveAfterTakeover s := by
  unfold execEval
  rw [h]

/-- Of the four evaluations only the standby's reads the owner. -/
theorem execEval_isNext (s : State) (h : s.arb.owner ≠ 3#2) : ∃ t, execEval s = .next t := by
  cases hrole : s.ctl.role with
  | primaryActive => exact ⟨_, execEval_primary hrole⟩
  | standbyPassive =>
    rw [execEval_standby hrole]
    by_cases hdue : s.takeoverDue s.seq.t = true
    · rw [execEvalStandby_of_due s hdue]
      exact claim_isNext s.cfg.self s.takingOver h
    · exact ⟨_, execEvalStandby_of_not_due s hdue⟩
  | takingOver => exact ⟨_, execEval_takingOver hrole⟩
  | activeAfterTakeover => exact ⟨_, execEval_afterTakeover hrole⟩

/-- Settles O40: one equation per role. -/
theorem evalRunsTheRoleHeld : Obligations.EvalRunsTheRoleHeld := fun s =>
  ⟨execEval_primary, execEval_standby, execEval_takingOver, execEval_afterTakeover, rfl, rfl, execEval_isNext s⟩

/-- Settles O47: an acknowledged flag is 0, and one that was 0 stays. -/
theorem failoverAckClearsTheFlag : Obligations.FailoverAckClearsTheFlag := by
  intro s rest
  refine ⟨rfl, rfl, fun hflag => congrArg Host.Outcome.next ?_⟩
  unfold State.setFailoverFlag
  rw [← hflag]

/-! The operation of a phase (R117). -/

/-- Whether a core's move is taken or none is left, the core has its turn. -/
theorem step_of_core_next (s : State) (h : s.moves = [] ∨ s.moves.head? = some .core) :
    step s = coreTurn { s with moves := s.moves.tail } := by
  unfold step takeTurn
  cases hm : s.moves with
  | nil => exact congrArg coreTurn (by rw [List.tail_nil, ← hm])
  | cons m rest =>
    obtain hnil | hcore := h
    · rw [hm] at hnil
      cases hnil
    · rw [hm, List.head?_cons] at hcore
      cases hcore
      rfl

/-- Settles O50: a legal `PHASE` is the code of a phase; in CLAIM_HOLD the hold has elapsed or has not. -/
theorem stepRunsTheOperationOfThePhase : Obligations.StepRunsTheOperationOfThePhase := by
  intro s hr hcodes hturn
  obtain ⟨hpstate, howner, htarget, hphase⟩ := hcodes
  obtain ⟨p, hp⟩ : ∃ p : Phase, s.seq.phase = p.code := by
    obtain ⟨p, hp⟩ := Option.ne_none_iff_exists'.1 (mt (Phase.ofCode_eq_none _).1 (BitVec.not_le.2 hphase))
    exact ⟨p, (Phase.ofCode_eq_some _ _).1 hp⟩
  rw [step_of_core_next s hturn,
    coreTurn_eq_exec { s with moves := s.moves.tail } p hr hp hpstate howner htarget, hp]
  congr 1
  cases p with
  | boot | tickStart | drain | send | eval => rfl
  | claimHold =>
    have hhold : { s with moves := s.moves.tail }.phaseInstr .claimHold =
        if (s.cfg.bbm : Int) ≤ ((s.env.clkMs : Int) - s.arb.breakStart) % 2 ^ s.cfg.clockWidth then .claimFinish
        else .claimHold := if_congr (holdElapsed_iff s) rfl rfl
    exact hhold

end Sys2Proof.Machine
end

section
/-! PROOFS. What no operation reads or writes: `CFG_HOLD` (R131) and the moves still to come. With other values of the two every
operation has the same outcome, but for these values. -/

namespace Sys2Proof.Machine

/-- The state with another `CFG_HOLD` and other moves. -/
def State.withUnread (hold : Time) (moves : List Move) (s : State) : State :=
  { s with cfg.hold := hold, moves := moves }

theorem withUnread_self (s : State) : s.withUnread s.cfg.hold s.moves = s := rfl

section
variable (hold : Time) (moves : List Move)

theorem execConsumeByte_withUnread (b : Byte) (s : State) :
    execConsumeByte b (s.withUnread hold moves) = mapNext (State.withUnread hold moves) (execConsumeByte b s) := by
  have hrow : (s.withUnread hold moves).rowOf b = s.rowOf b := rfl
  unfold execConsumeByte
  rw [hrow]
  cases s.rowOf b <;> rfl

theorem claim_withUnread (new : Owner) (s : State) :
    claim new (s.withUnread hold moves) = mapNext (State.withUnread hold moves) (claim new s) := by
  have howner : (s.withUnread hold moves).arb.owner = s.arb.owner := rfl
  unfold claim
  rw [howner]
  cases Owner.ofCode s.arb.owner with
  | none => rfl
  | some owner =>
    exact (apply_ite (mapNext (State.withUnread hold moves)) (new = owner) (.next s) (.next (s.beginClaim new))).symm

theorem execClaimNoop_withUnread (new : Owner) (s : State) :
    execClaimNoop new (s.withUnread hold moves) = mapNext (State.withUnread hold moves) (execClaimNoop new s) := by
  have howner : (s.withUnread hold moves).arb.owner = s.arb.owner := rfl
  unfold execClaimNoop
  rw [howner]
  cases Owner.ofCode s.arb.owner <;> rfl

theorem claimReturn_withUnread (s : State) :
    (s.withUnread hold moves).claimReturn = s.claimReturn.withUnread hold moves := by
  rw [claimReturn_eq_ite, claimReturn_eq_ite]
  rfl

theorem execClaimFinish_withUnread (s : State) :
    execClaimFinish (s.withUnread hold moves) = mapNext (State.withUnread hold moves) (execClaimFinish s) := by
  by_cases htarget : s.arb.target = 3#2
  · rw [execClaimFinish_of_reserved s htarget]
    exact execClaimFinish_of_reserved (s.withUnread hold moves) htarget
  · rw [execClaimFinish_eq s htarget]
    exact (execClaimFinish_eq (s.withUnread hold moves) htarget).trans
      (congrArg Host.Outcome.next (claimReturn_withUnread hold moves { s with arb := s.arb.made }))

theorem execBoot_withUnread (s : State) :
    execBoot (s.withUnread hold moves) = mapNext (State.withUnread hold moves) (execBoot s) := by
  cases hown : s.cfg.own with
  | a =>
    rw [execBoot_primary s hown]
    exact execBoot_primary (s.withUnread hold moves) hown
  | b =>
    rw [execBoot_secondary s hown]
    exact execBoot_secondary (s.withUnread hold moves) hown

theorem execDrain_withUnread (s : State) :
    execDrain (s.withUnread hold moves) = mapNext (State.withUnread hold moves) (execDrain s) := by
  cases hq : s.env.rxQueue with
  | nil =>
    rw [execDrain_nil s hq]
    exact execDrain_nil (s.withUnread hold moves) hq
  | cons b rest =>
    rw [execDrain_cons s b rest hq]
    exact (execDrain_cons (s.withUnread hold moves) b rest hq).trans
      (execConsumeByte_withUnread hold moves b { s with env.rxQueue := rest })

theorem execSendPhase_withUnread (s : State) :
    execSendPhase (s.withUnread hold moves) = mapNext (State.withUnread hold moves) (execSendPhase s) := by
  by_cases hdue : s.sendDue s.seq.t = true
  · rw [execSendPhase_of_due s hdue]
    exact execSendPhase_of_due (s.withUnread hold moves) hdue
  · rw [execSendPhase_of_not_due s hdue]
    exact execSendPhase_of_not_due (s.withUnread hold moves) hdue

theorem execEvalStandby_withUnread (s : State) :
    execEvalStandby (s.withUnread hold moves) = mapNext (State.withUnread hold moves) (execEvalStandby s) := by
  by_cases hdue : s.takeoverDue s.seq.t = true
  · rw [execEvalStandby_of_due s hdue]
    exact (execEvalStandby_of_due (s.withUnread hold moves) hdue).trans
      (claim_withUnread hold moves s.cfg.self s.takingOver)
  · rw [execEvalStandby_of_not_due s hdue]
    exact execEvalStandby_of_not_due (s.withUnread hold moves) hdue

theorem execEvalTakingover_withUnread (s : State) :
    execEvalTakingover (s.withUnread hold moves) = mapNext (State.withUnread hold moves) (execEvalTakingover s) := by
  by_cases hsettled : s.settleElapsed = true
  · rw [execEvalTakingover_of_elapsed s hsettled]
    exact execEvalTakingover_of_elapsed (s.withUnread hold moves) hsettled
  · rw [execEvalTakingover_of_not_elapsed s hsettled]
    exact execEvalTakingover_of_not_elapsed (s.withUnread hold moves) hsettled

theorem execEval_withUnread (s : State) :
    execEval (s.withUnread hold moves) = mapNext (State.withUnread hold moves) (execEval s) := by
  have hrole : (s.withUnread hold moves).ctl.role = s.ctl.role := rfl
  unfold execEval
  rw [hrole]
  cases s.ctl.role with
  | primaryActive | activeAfterTakeover => rfl
  | standbyPassive => exact execEvalStandby_withUnread hold moves s
  | takingOver => exact execEvalTakingover_withUnread hold moves s

/-- The two values reach no outcome but as themselves. -/
theorem exec_withUnread (i : Instr) (s : State) :
    exec i (s.withUnread hold moves) = mapNext (State.withUnread hold moves) (exec i s) := by
  cases i with
  | hbFrame id seq crc =>
    exact consumeAll_commutes _ (execConsumeByte_withUnread hold moves) [SYNC1, SYNC2, id, seq, crc] s
  | consumeByte b => exact execConsumeByte_withUnread hold moves b s
  | claimNoop new => exact execClaimNoop_withUnread hold moves new s
  | claimFinish => exact execClaimFinish_withUnread hold moves s
  | claimReturn => exact congrArg Host.Outcome.next (claimReturn_withUnread hold moves s)
  | boot => exact execBoot_withUnread hold moves s
  | drain => exact execDrain_withUnread hold moves s
  | sendPhase => exact execSendPhase_withUnread hold moves s
  | eval => exact execEval_withUnread hold moves s
  | evalStandby => exact execEvalStandby_withUnread hold moves s
  | evalTakingover => exact execEvalTakingover_withUnread hold moves s
  | ws1Sync1 | ws1Other | ws2Sync2 | ws2Resync | ws2Other | capId | capSeq | capCrcOk | capCrcBad | pstateRsv5
  | pstateRsv67 | crc8 | encode | send | sendDue | isPeerAlive | arbInitialize | claimBegin | claimHold | claimToNone
  | tickStart | evalPrimary | evalActiveAfterTakeover | failoverAck | reset => rfl

end

/-- The moves are the environment's: no operation writes them (R58, log entry 3). -/
theorem exec_moves (i : Instr) (s t : State) (h : exec i s = .next t) : t.moves = s.moves := by
  have hsame : (.next t : StepOutcome) = .next (t.withUnread s.cfg.hold s.moves) := by
    have hcommutes := exec_withUnread s.cfg.hold s.moves i s
    rwa [withUnread_self, h] at hcommutes
  have hmoves : t.moves = (t.withUnread s.cfg.hold s.moves).moves := congrArg State.moves (Host.Outcome.next.inj hsame)
  exact hmoves

/-- Settles O55: another value of `CFG_HOLD`, with the moves as they are. -/
theorem holdDurationHasNoEffect : Obligations.HoldDurationHasNoEffect := by
  intro i s hold
  refine (exec_withUnread hold s.moves i s).trans ?_
  cases hout : exec i s with
  | next t =>
    refine congrArg Host.Outcome.next ?_
    rw [State.withUnread, ← exec_moves i s t hout]
  | fault _ => rfl
  | refused _ => rfl

end Sys2Proof.Machine
end

section
/-! PROOFS. The role machine (R132, R133) and the ownership after a takeover (R135): what a step past BOOT can do to the role, and
which of it can happen where the node owns the bus. -/

namespace Sys2Proof.Machine

/-! The moves to come, one fewer after each step. -/

theorem coreTurn_moves (s t : State) (h : coreTurn s = .next t) : t.moves = s.moves := by
  cases hpin : s.env.resetPin with
  | true =>
    unfold coreTurn at h
    rw [if_pos hpin] at h
    cases h
    rfl
  | false =>
    obtain ⟨p, -, hexec⟩ := coreTurn_eq_next s t hpin h
    exact exec_moves (s.phaseInstr p) s t hexec

theorem configureMove_moves (c : Config) (s t : State) (h : configureMove c s = .next t) : t.moves = s.moves := by
  unfold configureMove at h
  split at h
  · cases h
    rw [State.resetRegisters_moves, State.rxTrim_moves, State.clockAdvance_moves]
  · cases h

theorem takeMove_moves (m : Move) (s t : State) (h : takeMove m s = .next t) : t.moves = s.moves := by
  cases m with
  | core => exact coreTurn_moves s t h
  | clock d | ack | assertReset | releaseReset => cases h; rfl
  | receive b => cases h; exact s.rxArrive_moves b
  | transmit => cases h; exact s.txLeave_moves
  | configure c => exact configureMove_moves c s t h

theorem step_moves (s t : State) (h : step s = .next t) : t.moves = s.moves.tail := by
  unfold step takeTurn at h
  split at h
  · next hm => rw [coreTurn_moves s t h, hm, List.tail_nil]
  · next m rest hm => rw [takeMove_moves m _ t h, hm, List.tail_cons]

/-! What a step can do to the role. -/

/-- All that a step past BOOT can do to the role when it is no reset and no configuration, and what it does to the arbitrator of a
node that is not in StandbyPassive. -/
inductive RoleStep (s t : State) : Prop where
  /-- nothing; outside a hold the arbitrator stays too -/
  | kept (hrole : t.ctl.role = s.ctl.role) (harb : s.seq.phase ≠ Phase.claimHold.code → t.arb = s.arb)
  /-- a takeover is due (R129) -/
  | takesOver (hphase : s.seq.phase = Phase.eval.code) (hs : s.ctl.role = .standbyPassive)
      (ht : t.ctl.role = .takingOver)
  /-- the settle delay has elapsed (R130) -/
  | settles (hphase : s.seq.phase = Phase.eval.code) (hs : s.ctl.role = .takingOver)
      (ht : t.ctl.role = .activeAfterTakeover) (harb : t.arb = s.arb)

/-- The moves still to come make no difference. -/
theorem RoleStep.of_with_moves {s t : State} {moves : List Move} (h : RoleStep { s with moves := moves } t) :
    RoleStep s t := by
  cases h with
  | kept hrole harb => exact .kept hrole harb
  | takesOver hphase hs ht => exact .takesOver hphase hs ht
  | settles hphase hs ht harb => exact .settles hphase hs ht harb

theorem RoleStep.of_same {s t : State} (hrole : t.ctl.role = s.ctl.role) (harb : t.arb = s.arb) : RoleStep s t :=
  .kept hrole fun _ => harb

theorem execDrain_roleStep (s t : State) (h : execDrain s = .next t) : RoleStep s t := by
  cases hq : s.env.rxQueue with
  | nil =>
    rw [execDrain_nil s hq] at h
    cases h
    exact .of_same rfl rfl
  | cons b rest =>
    rw [execDrain_cons s b rest hq] at h
    obtain ⟨hframe, -⟩ := execConsumeByte_frame b _ t h
    rw [hframe]
    exact .of_same rfl rfl

theorem execSendPhase_roleStep (s t : State) (h : execSendPhase s = .next t) : RoleStep s t := by
  by_cases hdue : s.sendDue s.seq.t = true
  · rw [execSendPhase_of_due s hdue] at h
    cases h
    exact .of_same rfl rfl
  · rw [execSendPhase_of_not_due s hdue] at h
    cases h
    exact .of_same rfl rfl

/-- Of the four roles two may change (R132). -/
theorem execEval_roleStep (s t : State) (hp : s.seq.phase = Phase.eval.code) (h : execEval s = .next t) :
    RoleStep s t := by
  cases hrole : s.ctl.role with
  | primaryActive =>
    rw [execEval_primary hrole] at h
    cases h
    exact .of_same rfl rfl
  | standbyPassive =>
    rw [execEval_standby hrole] at h
    by_cases hdue : s.takeoverDue s.seq.t = true
    · rw [execEvalStandby_of_due s hdue] at h
      obtain ⟨-, rfl⟩ | ⟨-, -, rfl⟩ := (claim_eq_next _ _ t).1 h
      · exact .takesOver hp hrole rfl
      · exact .takesOver hp hrole rfl
    · rw [execEvalStandby_of_not_due s hdue] at h
      cases h
      exact .of_same rfl rfl
  | takingOver =>
    rw [execEval_takingOver hrole] at h
    by_cases hsettled : s.settleElapsed = true
    · rw [execEvalTakingover_of_elapsed s hsettled] at h
      cases h
      exact .settles hp hrole rfl rfl
    · rw [execEvalTakingover_of_not_elapsed s hsettled] at h
      cases h
      exact .of_same rfl rfl
  | activeAfterTakeover =>
    rw [execEval_afterTakeover hrole] at h
    cases h
    exact .of_same rfl rfl

/-- The finish of a claim writes the arbitrator, which only a hold allows, and no role. -/
theorem execClaimFinish_roleStep (s t : State) (hp : s.seq.phase = Phase.claimHold.code)
    (h : execClaimFinish s = .next t) : RoleStep s t := by
  have htarget : s.arb.target ≠ 3#2 := fun hres => by
    rw [execClaimFinish_of_reserved s hres] at h
    cases h
  rw [execClaimFinish_eq s htarget, claimReturn_eq_ite] at h
  cases h
  exact .kept rfl fun hnotHold => absurd hp hnotHold

theorem coreTurn_roleStep (s t : State) (hboot : s.seq.phase ≠ Phase.boot.code) (h : coreTurn s = .next t) :
    RoleStep s t := by
  cases hpin : s.env.resetPin with
  | true =>
    unfold coreTurn at h
    rw [if_pos hpin] at h
    cases h
    exact .of_same rfl rfl
  | false =>
    obtain ⟨p, hp, hexec⟩ := coreTurn_eq_next s t hpin h
    cases p with
    | boot => exact absurd hp hboot
    | tickStart => cases hexec; exact .of_same rfl rfl
    | drain => exact execDrain_roleStep s t hexec
    | send => exact execSendPhase_roleStep s t hexec
    | eval => exact execEval_roleStep s t hp hexec
    | claimHold =>
      simp only [State.phaseInstr] at hexec
      split at hexec
      · exact execClaimFinish_roleStep s t hp hexec
      · cases hexec
        exact .of_same rfl rfl

theorem takeMove_roleStep (m : Move) (s t : State) (hboot : s.seq.phase ≠ Phase.boot.code) (hreset : m ≠ .assertReset)
    (hconf : ∀ c, m ≠ .configure c) (h : takeMove m s = .next t) : RoleStep s t := by
  cases m with
  | core => exact coreTurn_roleStep s t hboot h
  | clock d | ack | releaseReset => cases h; exact .of_same rfl rfl
  | receive b => cases h; exact .of_same (congrArg Ctl.role (s.rxArrive_ctl b)) (s.rxArrive_arb b)
  | transmit => cases h; exact .of_same (congrArg Ctl.role s.txLeave_ctl) s.txLeave_arb
  | assertReset => exact absurd rfl hreset
  | configure c => exact absurd rfl (hconf c)

theorem step_roleStep (s t : State) (hboot : s.seq.phase ≠ Phase.boot.code)
    (hreset : s.moves.head? ≠ some .assertReset) (hconf : ∀ c, s.moves.head? ≠ some (.configure c))
    (h : step s = .next t) : RoleStep s t := by
  unfold step takeTurn at h
  split at h
  · exact coreTurn_roleStep s t hboot h
  · next m rest hm =>
    simp only [hm, List.head?_cons, ne_eq, Option.some.injEq] at hreset hconf
    exact (takeMove_roleStep m { s with moves := rest } t hboot hreset hconf h).of_with_moves

/-- Settles O43: the two steps that change the role are those of EVAL. -/
theorem roleTransitionsAreExactlyTwo : Obligations.RoleTransitionsAreExactlyTwo := by
  intro s t h hboot hreset hconf hchange
  cases step_roleStep s t hboot hreset hconf h with
  | kept hrole _ => exact absurd hrole hchange
  | takesOver hphase hs ht => exact ⟨hphase, .inl ⟨hs, ht⟩⟩
  | settles hphase hs ht _ => exact ⟨hphase, .inr ⟨hs, ht⟩⟩

/-! The node that took the bus over (R135). -/

/-- The two roles of a node that has taken over. -/
def AfterTakeover (s : State) : Prop :=
  s.ctl.role = .takingOver ∨ s.ctl.role = .activeAfterTakeover

theorem initialRole_ne_afterTakeover (c : Config) :
    c.initialRole ≠ .takingOver ∧ c.initialRole ≠ .activeAfterTakeover := by
  unfold Config.initialRole
  split <;> decide

/-- Under `RESET` the role is the one of the configuration. -/
theorem Inv.running_of_afterTakeover {s : State} (h : Inv s) (hrole : AfterTakeover s) : s.env.resetPin = false := by
  obtain ⟨-, -, -, -, -, -, hreset, -⟩ := h
  cases hpin : s.env.resetPin with
  | false => rfl
  | true =>
    obtain ⟨-, -, hctl, -⟩ := (resetHolds_iff s).1 hreset hpin
    have hinit : s.cfg.initialRole = s.ctl.role := congrArg Ctl.role hctl
    obtain ⟨hne, hne'⟩ := initialRole_ne_afterTakeover s.cfg
    exact hrole.elim (fun hr => absurd (hinit.trans hr) hne) fun hr => absurd (hinit.trans hr) hne'

/-- BOOT and a hold find the bus without an owner (R134). -/
theorem Inv.inTick_of_owner {s : State} (h : Inv s) (howner : s.arb.owner = s.cfg.self.code) : InTick s := by
  obtain ⟨⟨-, -, -, hcode⟩, -, ⟨-, hbusyLines⟩, ⟨hholdBusy, hbootIdle⟩, -⟩ := h
  have hnone : s.arb.owner ≠ Owner.none.code := howner ▸ self_code_ne_none s.cfg
  refine ⟨fun hboot => ?_, fun hhold => ?_, hcode⟩
  · obtain ⟨-, hfree⟩ := hbootIdle hboot
    exact hnone hfree
  · obtain ⟨-, -, hfree, -⟩ := hbusyLines (hholdBusy hhold)
    exact hnone hfree

/-- A running core is not configured (R159). -/
theorem step_ne_configure (s t : State) (hrun : s.env.resetPin = false) (h : step s = .next t) (c : Config) :
    s.moves.head? ≠ some (.configure c) := by
  intro hhead
  obtain ⟨rest, hm⟩ := List.head?_eq_some_iff.1 hhead
  have hrefused : step s = .refused .configurationWhileRunning := by
    unfold step takeTurn
    rw [hm]
    exact configureMove_of_running c { s with moves := rest } hrun
  rw [hrefused] at h
  cases h

/-- A step that is no reset leaves the arbitrator of a node that took the bus over, and its role stays one of the two. -/
theorem step_of_owner_afterTakeover (s t : State) (hinv : Inv s) (hrole : AfterTakeover s)
    (howner : s.arb.owner = s.cfg.self.code) (hreset : s.moves.head? ≠ some .assertReset) (h : step s = .next t) :
    t.arb = s.arb ∧ AfterTakeover t := by
  have hrun := hinv.running_of_afterTakeover hrole
  obtain ⟨hboot, hnotHold, -⟩ := hinv.inTick_of_owner howner
  cases step_roleStep s t hboot hreset (step_ne_configure s t hrun h) h with
  | kept hsame harb =>
    refine ⟨harb hnotHold, ?_⟩
    unfold AfterTakeover
    rwa [hsame]
  | takesOver _ hs _ => simp [AfterTakeover, hs] at hrole
  | settles _ _ ht harb => exact ⟨harb, .inr ht⟩

/-- By induction on the length of the run: the configuration, so the identity, stays while the core runs, and no step adds a
reset to the moves. -/
theorem runSteps_of_owner_afterTakeover (n : Nat) (s t : State) (hinv : Inv s) (hrole : AfterTakeover s)
    (howner : s.arb.owner = s.cfg.self.code) (hmoves : .assertReset ∉ s.moves) (h : runSteps n s = .next t) :
    t.arb = s.arb ∧ AfterTakeover t := by
  induction n generalizing s with
  | zero =>
    cases h
    exact ⟨rfl, hrole⟩
  | succ n ih =>
    obtain ⟨u, hu, hrest⟩ := (andThen_eq_next _ _ _).1 h
    have hreset : s.moves.head? ≠ some .assertReset := fun hhead => hmoves (List.mem_of_head? hhead)
    obtain ⟨harb, hroleU⟩ := step_of_owner_afterTakeover s u hinv hrole howner hreset hu
    have hcfg : u.cfg = s.cfg := configurationIsStaticWhileRunning s u (hinv.running_of_afterTakeover hrole) hu
    have hmovesU : .assertReset ∉ u.moves := by
      rw [step_moves s u hu]
      exact fun hmem => hmoves (List.mem_of_mem_tail hmem)
    obtain ⟨harbT, hroleT⟩ := ih u (step_inv s u hinv hu) hroleU (by rw [harb, hcfg, howner]) hmovesU hrest
    exact ⟨harbT.trans harb, hroleT⟩

/-- Settles O46: the owner named in the statement is `SELF`. -/
theorem ownershipIsKeptAfterATakeover : Obligations.OwnershipIsKeptAfterATakeover := by
  intro n s t hinv hrole howner hmoves h
  rw [← self_code_eq] at howner
  exact runSteps_of_owner_afterTakeover n s t hinv hrole howner hmoves h

end Sys2Proof.Machine
end

section
/-! PROOFS. A tick with nothing arriving meanwhile (R118): TICK_START, one step of DRAIN for each queued byte and one that ends
the drain, SEND and EVAL, each as what it leaves of the state before. -/

namespace Sys2Proof.Machine

/-! Runs. -/

/-- The last step of a run. -/
theorem runSteps_succ_of_next (n : Nat) (s t : State) (h : runSteps n s = .next t) : runSteps (n + 1) s = step t := by
  induction n generalizing s with
  | zero =>
    cases h
    have hone : runSteps 1 t = andThen (step t) .next := rfl
    rw [hone]
    cases step t <;> rfl
  | succ n ih =>
    obtain ⟨u, hu, hrest⟩ := (andThen_eq_next _ _ _).1 h
    rw [runSteps, hu, andThen_next, ih u hrest]

theorem runSteps_inv (n : Nat) (s t : State) (hinv : Inv s) (h : runSteps n s = .next t) : Inv t := by
  induction n generalizing s with
  | zero =>
    cases h
    exact hinv
  | succ n ih =>
    obtain ⟨u, hu, hrest⟩ := (andThen_eq_next _ _ _).1 h
    exact ih u (step_inv s u hinv hu) hrest

/-! The phases. -/

/-- SEND may send a frame, and writes nothing else but `PHASE` (R125). -/
theorem execSendPhase_frame (s : State) : ∃ t, execSendPhase s = .next t ∧ t.seq.phase = Phase.eval.code ∧
    t = { s with link := t.link, seq.phase := t.seq.phase, env.txQueue := t.env.txQueue } := by
  by_cases hdue : s.sendDue s.seq.t = true
  · exact ⟨_, execSendPhase_of_due s hdue, rfl, rfl⟩
  · exact ⟨_, execSendPhase_of_not_due s hdue, rfl, rfl⟩

/-- EVAL ends the tick at the next TICK_START, or in the hold of the claim of a takeover: a node in StandbyPassive is not the
owner yet (R126, R134). It writes neither the queues nor the tick's sample. -/
theorem execEval_ends_tick (s : State) (hinv : Inv s) (hs : InTick s) :
    ∃ t, execEval s = .next t ∧ t.env = s.env ∧ t.seq.t = s.seq.t ∧
      (t.seq.phase = Phase.tickStart.code ∨ t.seq.phase = Phase.claimHold.code ∧ t.ctl.role = .takingOver) := by
  cases hrole : s.ctl.role with
  | primaryActive => exact ⟨_, execEval_primary hrole, rfl, rfl, .inl rfl⟩
  | standbyPassive =>
    rw [execEval_standby hrole]
    by_cases hdue : s.takeoverDue s.seq.t = true
    · obtain ⟨⟨-, hlegal, -⟩, -, hlines, -, ⟨hidle, -⟩, -⟩ := hinv
      have hnotBusy := hs.not_busy hlines
      obtain ⟨hnotBoot, -⟩ := hs
      obtain ⟨hfree, -⟩ := hidle hnotBoot hnotBusy
      have hother : s.arb.owner ≠ s.cfg.self.code := hfree hrole ▸ (self_code_ne_none s.cfg).symm
      rw [execEvalStandby_of_due s hdue, claim_of_not_owner s.cfg.self s.takingOver hother hlegal]
      exact ⟨_, rfl, rfl, rfl, .inr ⟨rfl, rfl⟩⟩
    · exact ⟨_, execEvalStandby_of_not_due s hdue, rfl, rfl, .inl rfl⟩
  | takingOver =>
    rw [execEval_takingOver hrole]
    by_cases hsettled : s.settleElapsed = true
    · exact ⟨_, execEvalTakingover_of_elapsed s hsettled, rfl, rfl, .inl rfl⟩
    · exact ⟨_, execEvalTakingover_of_not_elapsed s hsettled, rfl, rfl, .inl rfl⟩
  | activeAfterTakeover => exact ⟨_, execEval_afterTakeover hrole, rfl, rfl, .inl rfl⟩

/-! The tick. -/

/-- A state at the start of a tick in which nothing outside the core acts. -/
structure TickBegins (s : State) : Prop where
  inv : Inv s
  running : s.env.resetPin = false
  noMoves : s.moves = []
  phase : s.seq.phase = Phase.tickStart.code

/-- What the steps up to EVAL leave of the state `s` at the start of the tick: the tick's sample is in `SEQ_T`, and the link, the
queues and `PHASE` are the steps' own. -/
def WithinTick (s d : State) : Prop :=
  d = { s with link := d.link, seq.t := s.now, seq.phase := d.seq.phase, env.rxQueue := d.env.rxQueue
               env.txQueue := d.env.txQueue }

theorem WithinTick.fields {s d : State} (h : WithinTick s d) : d.ctl = s.ctl ∧ d.arb = s.arb ∧ d.seq.t = s.now ∧
    d.env.resetPin = s.env.resetPin ∧ d.moves = s.moves := by
  unfold WithinTick at h
  rw [h]
  exact ⟨rfl, rfl, rfl, rfl, rfl⟩

theorem WithinTick.change {s d e : State} (h : WithinTick s d)
    (he : e = { d with link := e.link, seq.phase := e.seq.phase, env.txQueue := e.env.txQueue }) : WithinTick s e := by
  unfold WithinTick at h ⊢
  rw [he, h]

/-- The state after TICK_START (R123). -/
def State.tickStarted (s : State) : State :=
  { s with seq.t := s.now }.setPhase .drain

section
variable {s : State} (hs : TickBegins s)
include hs

theorem TickBegins.step_eq : step s = .next s.tickStarted := by
  obtain ⟨⟨⟨hpstate, howner, htarget, -⟩, -⟩, hrun, hm, hp⟩ := hs
  rw [step_of_no_moves s hm, coreTurn_eq_exec s .tickStart hrun hp hpstate howner htarget]
  rfl

/-- Within a tick the step is the operation of the phase. -/
theorem TickBegins.step_within {n : Nat} {d : State} (hd : runSteps n s = .next d) (hin : WithinTick s d) (p : Phase)
    (hp : d.seq.phase = p.code) : step d = exec (d.phaseInstr p) d := by
  obtain ⟨⟨hpstate, howner, htarget, -⟩, -⟩ := runSteps_inv n s d hs.inv hd
  obtain ⟨-, -, -, hpin, hmoves⟩ := hin.fields
  rw [step_of_no_moves d (hmoves.trans hs.noMoves),
    coreTurn_eq_exec d p (hpin.trans hs.running) hp hpstate howner htarget]

/-- The queued bytes are consumed one a step, oldest first, and nothing is sent (R124). -/
theorem TickBegins.runSteps_drain (k : Nat) (hk : k ≤ s.env.rxQueue.length) :
    ∃ d, runSteps (k + 1) s = .next d ∧ WithinTick s d ∧ d.seq.phase = Phase.drain.code ∧
      d.env.rxQueue = s.env.rxQueue.drop k ∧ d.env.txQueue = s.env.txQueue := by
  obtain ⟨⟨hpstate, howner, htarget, -⟩, -⟩ := hs.inv
  have hdrain := runSteps_of_drainsNext (s.env.rxQueue.take k) (s.env.rxQueue.drop k) s.tickStarted
    ⟨hs.running, hs.noMoves, rfl, howner, htarget⟩ (List.take_append_drop k s.env.rxQueue).symm
  rw [List.length_take_of_le hk] at hdrain
  obtain ⟨d, hd⟩ := consumeAll_isNext (s.env.rxQueue.take k)
    { s.tickStarted with env.rxQueue := s.env.rxQueue.drop k } hpstate
  obtain ⟨hframe, -⟩ := consumeAll_frame _ _ d hd
  refine ⟨d, ?_, ?_⟩
  · rw [runSteps, hs.step_eq, andThen_next, hdrain, hd]
  · unfold WithinTick
    rw [hframe]
    exact ⟨rfl, rfl, rfl, rfl⟩

/-- The step that finds the queue empty ends the drain. -/
theorem TickBegins.runSteps_send :
    ∃ u, runSteps (s.env.rxQueue.length + 2) s = .next u ∧ WithinTick s u ∧ u.seq.phase = Phase.send.code ∧
      u.env.rxQueue = [] ∧ u.env.txQueue = s.env.txQueue := by
  obtain ⟨d, hd, hin, hp, hrx, htx⟩ := hs.runSteps_drain s.env.rxQueue.length le_rfl
  rw [List.drop_length] at hrx
  refine ⟨d.setPhase .send, ?_, hin.change rfl, rfl, hrx, htx⟩
  rw [runSteps_succ_of_next _ s d hd, hs.step_within hd hin .drain hp]
  exact execDrain_nil d hrx

theorem TickBegins.runSteps_eval :
    ∃ v, runSteps (s.env.rxQueue.length + 3) s = .next v ∧ WithinTick s v ∧ v.seq.phase = Phase.eval.code ∧
      v.env.rxQueue = [] := by
  obtain ⟨u, hu, hin, hp, hrx, -⟩ := hs.runSteps_send
  obtain ⟨v, hv, hpv, hframe⟩ := execSendPhase_frame u
  refine ⟨v, ?_, hin.change hframe, hpv, ?_⟩
  · rw [runSteps_succ_of_next _ s u hu, hs.step_within hu hin .send hp]
    exact hv
  · rw [hframe]
    exact hrx

theorem TickBegins.runSteps_end :
    ∃ t, runSteps (s.env.rxQueue.length + 4) s = .next t ∧ t.env.rxQueue = [] ∧ t.seq.t = s.now ∧
      (t.seq.phase = Phase.tickStart.code ∨ t.seq.phase = Phase.claimHold.code ∧ t.ctl.role = .takingOver) := by
  obtain ⟨v, hv, hin, hp, hrx⟩ := hs.runSteps_eval
  obtain ⟨-, -, hsample, -⟩ := hin.fields
  obtain ⟨t, ht, henv, hsampleT, hend⟩ := execEval_ends_tick v (runSteps_inv _ s v hs.inv hv)
    (inTick_of_phase hp (by decide) (by decide))
  refine ⟨t, ?_, henv ▸ hrx, hsampleT.trans hsample, hend⟩
  rw [runSteps_succ_of_next _ s v hv, hs.step_within hv hin .eval hp]
  exact ht

end

/-- Settles O52: the tick phase by phase, each from the state the one before it leaves. -/
theorem tickTakesItsPhasesInOrder : Obligations.TickTakesItsPhasesInOrder := by
  intro s hinv hrun hm hp
  have hs : TickBegins s := ⟨hinv, hrun, hm, hp⟩
  refine ⟨fun k hk => ?_, ?_, ?_, hs.runSteps_end⟩
  · obtain ⟨d, hd, hin, hpd, hrx, htx⟩ := hs.runSteps_drain k hk
    obtain ⟨hctl, harb, -⟩ := hin.fields
    exact ⟨d, hd, hpd, hrx, htx, hctl, harb⟩
  · obtain ⟨u, hu, hin, hpu, -, htx⟩ := hs.runSteps_send
    obtain ⟨hctl, harb, -⟩ := hin.fields
    exact ⟨u, hu, hpu, htx, hctl, harb⟩
  · obtain ⟨v, hv, hin, hpv, -⟩ := hs.runSteps_eval
    obtain ⟨hctl, harb, -⟩ := hin.fields
    exact ⟨v, hv, hpv, hctl, harb⟩

end Sys2Proof.Machine
end

section
/-! PROOFS. No input stops the core (R139): from a state without reserved codes every move goes on, but a configuration of a
running core, which the environment has not (R148). -/

namespace Sys2Proof.Machine

/-! The operations of the phases. -/

/-- A legal `PHASE` is the code of a phase (R73). -/
theorem exists_phase_of_legal (s : State) (h : s.seq.phase < 6#3) : ∃ p : Phase, s.seq.phase = p.code := by
  obtain ⟨p, hp⟩ := Option.ne_none_iff_exists'.1 (mt (Phase.ofCode_eq_none _).1 (BitVec.not_le.2 h))
  exact ⟨p, (Phase.ofCode_eq_some _ _).1 hp⟩

/-- BOOT reads no register, so that it goes on from every state (R121). -/
theorem execBoot_isNext (s : State) : ∃ t, execBoot s = .next t := by
  cases hown : s.cfg.own with
  | a => exact ⟨_, execBoot_primary s hown⟩
  | b => exact ⟨_, execBoot_secondary s hown⟩

theorem execDrain_isNext (s : State) (h : s.link.pstate < 5#3) : ∃ t, execDrain s = .next t := by
  cases hq : s.env.rxQueue with
  | nil => exact ⟨_, execDrain_nil s hq⟩
  | cons b rest =>
    rw [execDrain_cons s b rest hq]
    exact execConsumeByte_isNext b { s with env.rxQueue := rest } h

/-! Every turn, every move, every step. -/

/-- The core's turn goes on in every phase: of the operations only DRAIN, EVAL and the finish of a claim read a coded register,
and no code is reserved. Under `RESET` the turn is a wait. -/
theorem coreTurn_isNext (s : State) (hcodes : CodesLegal s) : ∃ t, coreTurn s = .next t := by
  obtain ⟨hpstate, howner, htarget, hphase⟩ := hcodes
  cases hpin : s.env.resetPin with
  | true => exact ⟨s, if_pos hpin⟩
  | false =>
    obtain ⟨p, hp⟩ := exists_phase_of_legal s hphase
    rw [coreTurn_eq_exec s p hpin hp hpstate howner htarget]
    cases p with
    | boot => exact execBoot_isNext s
    | tickStart | send => exact ⟨_, rfl⟩
    | drain => exact execDrain_isNext s hpstate
    | eval => exact execEval_isNext s howner
    | claimHold =>
      simp only [State.phaseInstr]
      split
      · exact ⟨_, execClaimFinish_eq s htarget⟩
      · exact ⟨s, rfl⟩

theorem takeMove_isNext (m : Move) (s : State) (hcodes : CodesLegal s) (hconf : ∀ c, m ≠ .configure c) :
    ∃ t, takeMove m s = .next t := by
  cases m with
  | core => exact coreTurn_isNext s hcodes
  | clock | receive | transmit | ack | assertReset | releaseReset => exact ⟨_, rfl⟩
  | configure c => exact absurd rfl (hconf c)

theorem step_isNext (s : State) (hcodes : CodesLegal s) (hconf : ∀ c, s.moves.head? ≠ some (.configure c)) :
    ∃ t, step s = .next t := by
  unfold step takeTurn
  split
  · exact coreTurn_isNext s hcodes
  · next m rest hm =>
    simp only [hm, List.head?_cons, ne_eq, Option.some.injEq] at hconf
    exact takeMove_isNext m { s with moves := rest } hcodes hconf

/-- Settles O51, by induction on the length of the run: the invariant, which every step keeps, has no reserved code, and no step
adds a configuration to the moves. -/
theorem everyRunGoesOn : Obligations.EveryRunGoesOn := by
  intro n
  induction n with
  | zero => exact fun s hinv _ => ⟨s, rfl, hinv⟩
  | succ n ih =>
    intro s hinv hmoves
    have ⟨hcodes, _⟩ := hinv
    obtain ⟨u, hu⟩ := step_isNext s hcodes fun c hhead => hmoves c (List.mem_of_head? hhead)
    have hmovesU : ∀ c, .configure c ∉ u.moves := by
      rw [step_moves s u hu]
      exact fun c hmem => hmoves c (List.mem_of_mem_tail hmem)
    rw [runSteps, hu, andThen_next]
    exact ih u (step_inv s u hinv hu) hmovesU

end Sys2Proof.Machine
end

section
/-! PROOFS. What a tick of a node in StandbyPassive makes of the peer's frames (R142, R150): a frame drained in it is the freshest
there can be, and a silence beyond the timeout, with nothing to drain, is a takeover. -/

namespace Sys2Proof.Machine

/-! The takeover condition for a known peer (R128). -/

theorem takeoverDue_of_peerKnown (s : State) (h : s.link.peerKnown = true) :
    s.takeoverDue s.seq.t = true ↔
      (s.cfg.peerTimeout : Int) < ((s.seq.t : Int) - s.link.lastRx) % 2 ^ s.cfg.clockWidth := by
  rw [takeoverDue_iff]
  simp only [h, true_and, true_or, and_true, not_le]

/-- Only identity B is ever in StandbyPassive (R120). -/
theorem self_eq_b_of_standby (s : State) (hrole : RoleFitsIdentity s) (h : s.ctl.role = .standbyPassive) :
    s.cfg.self = .b := by
  unfold Config.self
  cases hown : s.cfg.own with
  | a => exact absurd (h.symm.trans (hrole.2 hown)) (by decide)
  | b => rfl

/-- A node in StandbyPassive owns nothing: BOOT finds the bus without an owner, a claim in progress holds it so, and from then on
the role says it (R134). -/
theorem Inv.owner_none_of_standby {s : State} (h : Inv s) (hrole : s.ctl.role = .standbyPassive) :
    s.arb.owner = Owner.none.code := by
  obtain ⟨-, -, ⟨-, hbusyLines⟩, ⟨-, hbootIdle⟩, ⟨hidle, -⟩, -⟩ := h
  cases hbusy : s.arb.busy with
  | true =>
    obtain ⟨-, -, hnone, -⟩ := hbusyLines hbusy
    exact hnone
  | false =>
    by_cases hboot : s.seq.phase = Phase.boot.code
    · obtain ⟨-, hnone⟩ := hbootIdle hboot
      exact hnone
    · obtain ⟨hnone, -⟩ := hidle hboot hbusy
      exact hnone hrole

/-! From the end of the drain to EVAL. -/

/-- SEND leaves the peer registers alone (R105). -/
theorem execSendPhase_peerKept (s t : State) (h : execSendPhase s = .next t) : PeerKept s t := by
  by_cases hdue : s.sendDue s.seq.t = true
  · rw [execSendPhase_of_due s hdue] at h
    cases h
    exact ⟨rfl, rfl, rfl⟩
  · rw [execSendPhase_of_not_due s hdue] at h
    cases h
    exact ⟨rfl, rfl, rfl⟩

/-- Two steps after the last byte is drained the core is in EVAL, with what the drain left in the peer registers. -/
theorem TickBegins.runSteps_eval_of_drained {s : State} (hs : TickBegins s) {n : Nat} {d : State}
    (hd : runSteps n s = .next d) (hin : WithinTick s d) (hp : d.seq.phase = Phase.drain.code) (hq : d.env.rxQueue = []) :
    ∃ v, runSteps (n + 2) s = .next v ∧ WithinTick s v ∧ v.seq.phase = Phase.eval.code ∧ PeerKept d v := by
  have hu : runSteps (n + 1) s = .next (d.setPhase .send) := by
    rw [runSteps_succ_of_next n s d hd, hs.step_within hd hin .drain hp]
    exact execDrain_nil d hq
  have hinU : WithinTick s (d.setPhase .send) := hin.change rfl
  obtain ⟨v, hv, hpv, hframe⟩ := execSendPhase_frame (d.setPhase .send)
  have hkept := execSendPhase_peerKept _ v hv
  refine ⟨v, ?_, hinU.change hframe, hpv, hkept⟩
  rw [runSteps_succ_of_next (n + 1) s _ hu, hs.step_within hu hinU .send rfl]
  exact hv

/-- In EVAL of a tick of a node in StandbyPassive, with a known peer, the tick's sample decides. -/
theorem WithinTick.takeoverDue_iff {s v : State} (h : WithinTick s v) (hknown : v.link.peerKnown = true) :
    v.takeoverDue v.seq.t = true ↔
      (s.cfg.peerTimeout : Int) < ((s.now : Int) - v.link.lastRx) % 2 ^ s.cfg.clockWidth := by
  have hcfg : v.cfg = s.cfg := by rw [h]
  obtain ⟨-, -, hsample, -⟩ := h.fields
  rw [takeoverDue_of_peerKnown v hknown, hcfg, hsample]

/-! A frame drained in the tick (R142). -/

/-- The state in which a tick's drain has accepted a frame at the tick's sample. -/
def State.frameDrained (s : State) (id seq : Byte) : State :=
  ({ s.tickStarted with env.rxQueue := [] }.captured id seq).acceptFrame.setPState .waitSync1

theorem TickBegins.runSteps_frame {s : State} (hs : TickBegins s) (hwait : s.Waiting) (id seq : Byte)
    (hq : s.env.rxQueue = [SYNC1, SYNC2, id, seq, crc8 [id, seq]]) :
    runSteps 6 s = .next (s.frameDrained id seq) := by
  obtain ⟨⟨-, howner, htarget, -⟩, -⟩ := hs.inv
  have hdrain := runSteps_of_drainsNext [SYNC1, SYNC2, id, seq, crc8 [id, seq]] [] s.tickStarted
    ⟨hs.running, hs.noMoves, rfl, howner, htarget⟩ hq
  have hwaitQ : State.Waiting { s.tickStarted with env.rxQueue := [] } := hwait
  rw [runSteps, hs.step_eq, andThen_next]
  exact hdrain.trans (hwaitQ.consumeAll_validFrame id seq)

/-- Settles O57: at EVAL no time has passed since the frame, so that no takeover is due. -/
theorem frameInATickPreventsItsTakeover : Obligations.FrameInATickPreventsItsTakeover := by
  intro s id seq hinv hrun hm hp hrole hwait hq
  have hs : TickBegins s := ⟨hinv, hrun, hm, hp⟩
  obtain ⟨v, hv, hin, hpv, hknown, hid, hrx⟩ :=
    hs.runSteps_eval_of_drained (hs.runSteps_frame hwait id seq hq) rfl rfl rfl
  obtain ⟨hctl, harb, -⟩ := hin.fields
  have hnotDue : ¬v.takeoverDue v.seq.t = true := by
    have hlastRx : v.link.lastRx = s.now := hrx
    rw [hin.takeoverDue_iff hknown, hlastRx, sub_self, Int.zero_emod, not_lt]
    exact Int.natCast_nonneg _
  refine ⟨v.setPhase .tickStart, ?_, hctl ▸ hrole, rfl, harb, hid, hrx⟩
  rw [runSteps_succ_of_next 8 s v hv, hs.step_within hv hin .eval hpv]
  exact (execEval_standby (hctl ▸ hrole)).trans (execEvalStandby_of_not_due v hnotDue)

/-! A tick of a silent peer (R150). -/

/-- An operation goes on to the same state, whatever the moves to come. -/
theorem exec_with_moves (i : Instr) (s t : State) (moves : List Move) (h : exec i s = .next t) :
    exec i { s with moves := moves } = .next { t with moves := moves } := by
  have hunread := exec_withUnread s.cfg.hold moves i s
  rw [h] at hunread
  refine hunread.trans (congrArg Host.Outcome.next ?_)
  rw [← exec_cfg i s t h]
  rfl

theorem coreTurn_with_moves (s t : State) (moves : List Move) (h : coreTurn s = .next t) :
    coreTurn { s with moves := moves } = .next { t with moves := moves } := by
  unfold coreTurn at h ⊢
  split at h
  · next hpin =>
    cases h
    exact if_pos hpin
  · next hpin =>
    have hnext : State.nextInstr { s with moves := moves } = s.nextInstr := rfl
    rw [if_neg hpin, hnext]
    cases hi : s.nextInstr with
    | error f =>
      rw [hi] at h
      cases h
    | ok i =>
      rw [hi] at h
      exact exec_with_moves i s t moves h

/-- A stretch in which nothing but the core acts is the same with the core's moves written out. -/
theorem runSteps_with_core_moves (n : Nat) (rest : List Move) (s t : State) (hm : s.moves = [])
    (h : runSteps n s = .next t) :
    runSteps n { s with moves := List.replicate n .core ++ rest } = .next { t with moves := rest } := by
  induction n generalizing s with
  | zero =>
    cases h
    rfl
  | succ n ih =>
    obtain ⟨u, hu, hrest⟩ := (andThen_eq_next _ _ _).1 h
    have hmU : u.moves = [] := by rw [step_moves s u hu, hm, List.tail_nil]
    have hstep : step { s with moves := List.replicate (n + 1) .core ++ rest } =
        .next { u with moves := List.replicate n .core ++ rest } :=
      coreTurn_with_moves s u _ ((step_of_no_moves s hm).symm.trans hu)
    rw [runSteps, hstep, andThen_next]
    exact ih u hmU hrest

/-- Four steps take a tick with nothing to drain and a silent peer to the hold of the takeover. -/
theorem TickBegins.runSteps_takeover {s : State} (hs : TickBegins s) (hrole : s.ctl.role = .standbyPassive)
    (hq : s.env.rxQueue = []) (hknown : s.link.peerKnown = true)
    (hsilent : (s.cfg.peerTimeout : Int) < ((s.env.clkMs : Int) - s.link.lastRx) % 2 ^ s.cfg.clockWidth) :
    ∃ v, runSteps 4 s = .next (v.takingOver.beginClaim .b) ∧ WithinTick s v := by
  have hd : runSteps 1 s = .next s.tickStarted := by rw [runSteps, hs.step_eq]; rfl
  obtain ⟨v, hv, hin, hpv, hknownV, -, hrx⟩ := hs.runSteps_eval_of_drained hd rfl rfl hq
  have hnow : ((s.now : Int) - v.link.lastRx) % 2 ^ s.cfg.clockWidth =
      ((s.env.clkMs : Int) - s.link.lastRx) % 2 ^ s.cfg.clockWidth := by
    have hlastRx : v.link.lastRx = s.link.lastRx := hrx
    rw [← elapsed_eq_int, ← elapsed_eq_int, hlastRx, State.now, elapsed_mod_left]
  have hdue : v.takeoverDue v.seq.t = true := by
    rw [hin.takeoverDue_iff (hknownV.trans hknown), hnow]
    exact hsilent
  have hinvV := runSteps_inv 3 s v hs.inv hv
  have ⟨⟨_, hlegal, _⟩, _, _, _, _, hfits, _⟩ := hinvV
  have hroleV : v.ctl.role = .standbyPassive := by
    obtain ⟨hctl, -⟩ := hin.fields
    rw [hctl, hrole]
  have hself : v.cfg.self = .b := self_eq_b_of_standby v hfits hroleV
  have hother : v.arb.owner ≠ Owner.b.code := by
    rw [hinvV.owner_none_of_standby hroleV]
    decide
  refine ⟨v, ?_, hin⟩
  rw [runSteps_succ_of_next 3 s v hv, hs.step_within hv hin .eval hpv]
  exact (execEval_standby hroleV).trans ((execEvalStandby_of_due v hdue).trans
    (hself ▸ claim_of_not_owner .b v.takingOver hother hlegal))

/-- Settles O58: the hold starts at the tick's end, and its finish, once the clock has moved on by `CFG_BBM`, is the takeover
of the bus. -/
theorem secondaryOwnsTheBusAfterPeerSilence : Obligations.SecondaryOwnsTheBusAfterPeerSilence := by
  intro s d hinv hrun hp hrole hq hknown hsilent hd hw
  have hs : TickBegins { s with moves := [] } := ⟨inv_with_moves s [] hinv, hrun, rfl, hp⟩
  obtain ⟨v, hv, hin⟩ := hs.runSteps_takeover hrole hq hknown hsilent
  have hbreak := runSteps_with_core_moves 4 [.clock d, .core] _ _ rfl hv
  have hcfg : v.cfg = s.cfg := by rw [hin]
  have hclk : v.env.clkMs = s.env.clkMs := by rw [hin]
  have hpin : v.env.resetPin = false := by rw [hin]; exact hrun
  have ⟨hcodes, _⟩ := runSteps_inv 4 _ _ hs.inv hv
  have helapsed : ((v.takingOver.beginClaim .b).clockAdvance d).holdElapsed = true :=
    holdElapsed_beginClaim_clockAdvance .b v.takingOver d (hcfg ▸ hd) (hcfg ▸ hw)
  have hfinish := runSteps_clock_core_of_claimHold (v.takingOver.beginClaim .b) d hpin hcodes rfl helapsed
  rw [execClaimFinish_eq _ (owner_code_ne_reserved .b), claimReturn_eq_ite] at hfinish
  refine ⟨_, _, hbreak, rfl, rfl, rfl, rfl, hfinish, rfl, rfl, rfl, rfl, rfl, rfl, ?_⟩
  have hstart : ((v.env.clkMs + d) % 2 ^ v.cfg.clockWidth) % 2 ^ v.cfg.clockWidth =
      (s.env.clkMs + d) % 2 ^ s.cfg.clockWidth := by
    rw [Nat.mod_mod, hcfg, hclk]
  exact hstart

end Sys2Proof.Machine
end

section
/-! PROOFS. The two-node system (R149): a step of it is, for each node, nothing or one of the node's own moves, so that each node
keeps its invariant; and a run of it that ends in split-brain (R151). -/

namespace Sys2Proof.Machine

/-! What a step of the system does to a node. -/

theorem System.node_setNode (S : System) (n k : Ident) (s : State) :
    (S.setNode n s).node k = if k = n then s else S.node k := by
  cases n <;> cases k <;> rfl

/-- The channels are no part of a node. -/
theorem System.node_setTowards (S : System) (n k : Ident) (bytes : List Byte) :
    (S.setTowards n bytes).node k = S.node k := by
  cases n <;> rfl

/-- A node stays as it is, or takes a move that is no configuration: the system has no such move (R149, R159). -/
def NodeStep (s t : State) : Prop :=
  t = s ∨ ∃ m, (∀ c, m ≠ .configure c) ∧ takeMove m s = .next t

/-- The node named takes the move, the other one stays. -/
theorem nodeStep_setNode (S : System) (n k : Ident) (m : Move) (t : State) (hconf : ∀ c, m ≠ .configure c)
    (h : takeMove m (S.node n) = .next t) : NodeStep (S.node k) ((S.setNode n t).node k) := by
  rw [System.node_setNode]
  split
  · next hk =>
    subst hk
    exact .inr ⟨m, hconf, h⟩
  · exact .inl rfl

theorem nodeMove_nodeStep (S T : System) (n k : Ident) (m : Move) (hconf : ∀ c, m ≠ .configure c)
    (h : S.nodeMove n m = .next T) : NodeStep (S.node k) (T.node k) := by
  unfold System.nodeMove at h
  split at h
  · next t ht =>
    cases h
    exact nodeStep_setNode S n k m t hconf ht
  · cases h
  · cases h

/-- A departing byte is the node's transmission (R49). -/
theorem departByte_nodeStep (S : System) (n k : Ident) : NodeStep (S.node k) ((S.departByte n).node k) := by
  unfold System.departByte
  split
  · exact .inl rfl
  · rw [System.node_setTowards]
    exact nodeStep_setNode S n k .transmit _ nofun rfl

/-- A delivered byte is an arrival at the node (R47). -/
theorem deliverByte_nodeStep (S : System) (n k : Ident) : NodeStep (S.node k) ((S.deliverByte n).node k) := by
  unfold System.deliverByte
  split
  · exact .inl rfl
  · next b rest _ =>
    rw [System.node_setTowards]
    exact nodeStep_setNode S n k (.receive b) _ nofun rfl

theorem corruptByte_node (S : System) (n k : Ident) (b : Byte) : (S.corruptByte n b).node k = S.node k := by
  unfold System.corruptByte
  split
  · rfl
  · exact S.node_setTowards n k _

theorem sysStep_nodeStep (m : SysMove) (S T : System) (k : Ident) (h : sysStep m S = .next T) :
    NodeStep (S.node k) (T.node k) := by
  cases m with
  | core n => exact nodeMove_nodeStep S T n k .core nofun h
  | clock n d => exact nodeMove_nodeStep S T n k (.clock d) nofun h
  | ack n => exact nodeMove_nodeStep S T n k .ack nofun h
  | assertReset n => exact nodeMove_nodeStep S T n k .assertReset nofun h
  | releaseReset n => exact nodeMove_nodeStep S T n k .releaseReset nofun h
  | depart n => cases h; exact departByte_nodeStep S n k
  | deliver n => cases h; exact deliverByte_nodeStep S n k
  | lose n | insert n b => cases h; exact .inl (S.node_setTowards n k _)
  | corrupt n b => cases h; exact .inl (corruptByte_node S n k b)

/-! What a step of the system keeps. -/

/-- Only the integrator's move writes the configuration, under `RESET` too (R8, R159). -/
theorem takeMove_cfg_of_ne_configure (m : Move) (s t : State) (hconf : ∀ c, m ≠ .configure c)
    (h : takeMove m s = .next t) : t.cfg = s.cfg := by
  cases hpin : s.env.resetPin with
  | false => exact takeMove_cfg m s t hpin h
  | true =>
    cases m with
    | core =>
      have hwait : coreTurn s = .next s := if_pos hpin
      exact cfg_eq_of_next (hwait.symm.trans h) rfl
    | clock d => exact cfg_eq_of_next h (s.clockAdvance_cfg d)
    | receive b => exact cfg_eq_of_next h (s.rxArrive_cfg b)
    | transmit => exact cfg_eq_of_next h s.txLeave_cfg
    | ack | assertReset | releaseReset => exact cfg_eq_of_next h rfl
    | configure c => exact absurd rfl (hconf c)

theorem NodeStep.inv {s t : State} (h : NodeStep s t) (hinv : Inv s) : Inv t := by
  obtain rfl | ⟨m, -, hm⟩ := h
  · exact hinv
  · exact takeMove_inv m s t hinv hm

theorem NodeStep.cfg {s t : State} (h : NodeStep s t) : t.cfg = s.cfg := by
  obtain rfl | ⟨m, hconf, hm⟩ := h
  · rfl
  · exact takeMove_cfg_of_ne_configure m s t hconf hm

/-- Both nodes meet the invariant, and they are set up as R149 says. -/
def System.Safe (S : System) : Prop :=
  Inv S.nodeA ∧ Inv S.nodeB ∧ S.Paired

theorem sysStep_safe (m : SysMove) (S T : System) (hS : S.Safe) (h : sysStep m S = .next T) : T.Safe := by
  obtain ⟨hinvA, hinvB, hpaired⟩ := hS
  have hA : NodeStep S.nodeA T.nodeA := sysStep_nodeStep m S T .a h
  have hB : NodeStep S.nodeB T.nodeB := sysStep_nodeStep m S T .b h
  refine ⟨hA.inv hinvA, hB.inv hinvB, ?_⟩
  rwa [System.Paired, hA.cfg, hB.cfg]

/-- Neither node of a safe system energizes both lines (R113). -/
theorem System.Safe.notBothLines {S : System} (h : S.Safe) : NotBothLines S.nodeA ∧ NotBothLines S.nodeB := by
  obtain ⟨⟨-, -, hlinesA, -⟩, ⟨-, -, hlinesB, -⟩, -⟩ := h
  exact ⟨hlinesA.notBothLines, hlinesB.notBothLines⟩

theorem System.Safe.not_splitBrain_of_standby {S : System} (h : S.Safe) (hrole : S.nodeB.ctl.role = .standbyPassive) :
    ¬S.SplitBrain := by
  obtain ⟨-, hinvB, -⟩ := h
  rintro ⟨-, hown⟩
  exact self_code_ne_none S.nodeB.cfg (hown.symm.trans (hinvB.owner_none_of_standby hrole))

/-- Settles O59: a step of the system is at most one move of each node, whose invariant gives the lines and the ownership. -/
theorem eachNodeOfTheSystemStaysSafe : Obligations.EachNodeOfTheSystemStaysSafe := by
  intro S T m hinvA hinvB hpaired hstep
  have hT := sysStep_safe m S T ⟨hinvA, hinvB, hpaired⟩ hstep
  have ⟨hinvA', hinvB', hpaired'⟩ := hT
  obtain ⟨hlinesA, hlinesB⟩ := hT.notBothLines
  exact ⟨hinvA', hinvB', hpaired', hlinesA, hlinesB, hT.not_splitBrain_of_standby⟩

/-! Split-brain (R151, C5). -/

/-- Every run of the system keeps both nodes safe. -/
theorem sysRun_safe (moves : List SysMove) (S T : System) (hS : S.Safe) (h : sysRun moves S = .next T) : T.Safe := by
  induction moves generalizing S with
  | nil => cases h; exact hS
  | cons m ms ih =>
    rw [sysRun] at h
    split at h
    · next S' hstep => exact ih S' (sysStep_safe m S S' hS hstep) h
    · cases h
    · cases h

theorem systemReset_safe (c : Config) : (System.reset c).Safe := by
  have hinv (own : Ident) : Inv { State.reset with cfg := { c.narrow with own := own } }.resetRegisters := by
    refine resetRegisters_inv _ c.narrow_inRange (Nat.two_pow_pos _) ?_
    rw [State.rxFits_iff]
    exact fun depth _ => Nat.zero_le depth
  exact ⟨hinv .a, hinv .b, rfl, rfl, rfl, rfl⟩

/-- The primary boots, makes its claim, and sends a frame in the tick after it. -/
def primaryRuns : List SysMove :=
  [.core .a, .clock .a 50, .core .a, .clock .a 500, .core .a, .core .a, .core .a, .core .a]

/-- The link is cut: each byte of the frame enters the channel and is lost. -/
def frameIsLost : List SysMove :=
  [.depart .a, .lose .b, .depart .a, .lose .b, .depart .a, .lose .b, .depart .a, .lose .b, .depart .a, .lose .b]

/-- The secondary boots, finds a takeover due in the tick after its boot grace, and makes its claim. -/
def secondaryTakesOver : List SysMove :=
  [.core .b, .clock .b 2001, .core .b, .core .b, .core .b, .core .b, .clock .b 50, .core .b]

/-- Case 1 of R151: the primary runs, and its frames do not reach the secondary. -/
def splitBrainRun : List SysMove :=
  primaryRuns ++ frameIsLost ++ secondaryTakesOver

theorem splitBrainRun_ends_with_two_owners : ∃ S, sysRun splitBrainRun (System.reset Config.suggested) = .next S ∧
    S.nodeA.arb.owner = Owner.a.code ∧ S.nodeB.arb.owner = Owner.b.code :=
  ⟨_, rfl, rfl, rfl⟩

/-- Settles O60: a run that starts safe stays so, even where it ends with two owners. -/
theorem splitBrainIsReachable : Obligations.SplitBrainIsReachable := by
  obtain ⟨S, hrun, hownerA, hownerB⟩ := splitBrainRun_ends_with_two_owners
  have hsafe := sysRun_safe splitBrainRun _ S (systemReset_safe Config.suggested) hrun
  have ⟨_, _, hpaired⟩ := hsafe
  have ⟨hidA, hidB, _⟩ := hpaired
  obtain ⟨hlinesA, hlinesB⟩ := hsafe.notBothLines
  refine ⟨splitBrainRun, S, fun n => ?_, hrun, hpaired, ⟨hownerA.trans ?_, hownerB.trans ?_⟩, hlinesA, hlinesB⟩
  · simp [splitBrainRun, primaryRuns, frameIsLost, secondaryTakesOver]
  · rw [self_code_eq, if_pos hidA]; rfl
  · rw [self_code_eq, hidB]; rfl

end Sys2Proof.Machine
end

section
/-! PROOFS. RESET and what follows it (spec 70): the reset values, the core's wait under `RESET`, and BOOT with its claim once
`RESET` is released. -/

namespace Sys2Proof.Machine

/-! `RESET` asserted (R155, R156). -/

/-- The role at reset, written out for each identity (R29, R120). -/
theorem initialRole_eq_ite (c : Config) :
    c.initialRole = if c.own = .a then .primaryActive else .standbyPassive := rfl

theorem step_assertReset (s : State) (rest : List Move) :
    step { s with moves := .assertReset :: rest } = execReset { s with moves := rest } := rfl

/-- Settles O48: the reset values of R42 are those of `State.resetRegisters`, with 0 in the two registers that BOOT writes. -/
theorem resetGivesEveryRegisterItsResetValue : Obligations.ResetGivesEveryRegisterItsResetValue := by
  intro s rest
  refine ⟨0, 0, ?_, step_assertReset s rest⟩
  rw [← initialRole_eq_ite]
  rfl

/-- Under `RESET` the core takes no step. -/
theorem coreTurn_of_reset (s : State) (hpin : s.env.resetPin = true) : coreTurn s = .next s :=
  if_pos hpin

/-! `RESET` released (R157). -/

/-- The state in which `RESET` has just been released and `rest` are the moves to come. -/
def State.released (s : State) (rest : List Move) : State :=
  { s with env.resetPin := false, moves := rest }

/-- The release of `RESET` writes no register. -/
theorem step_releaseReset (s : State) (rest : List Move) :
    step { s with moves := .releaseReset :: rest } = .next (s.released rest) := rfl

theorem ResetHolds.phase_eq_boot {s : State} (h : ResetHolds s) (hpin : s.env.resetPin = true) :
    s.seq.phase = Phase.boot.code := by
  obtain ⟨-, -, -, hseq⟩ := (resetHolds_iff s).1 h hpin
  rw [← hseq, State.resetRegisters_seq]

/-- At BOOT the core's turn asks nothing of the other coded registers, which BOOT writes (R121). -/
theorem coreTurn_of_boot (s : State) (hrun : s.env.resetPin = false) (hp : s.seq.phase = Phase.boot.code) :
    coreTurn s = execBoot s := by
  unfold coreTurn State.nextInstr
  rw [hrun, hp]
  rfl

/-- A run that releases `RESET` and gives the core its turn begins with BOOT. -/
theorem runSteps_releaseReset_core (n : Nat) (rest : List Move) (s : State) (hpin : s.env.resetPin = true)
    (h : ResetHolds s) :
    runSteps (n + 2) { s with moves := .releaseReset :: .core :: rest } =
      andThen (execBoot (s.released rest)) (runSteps n) := by
  have hcore : step (s.released (.core :: rest)) = execBoot (s.released rest) :=
    coreTurn_of_boot (s.released rest) rfl (h.phase_eq_boot hpin)
  rw [runSteps, step_releaseReset, andThen_next, runSteps, hcore]

theorem andThen_runSteps_zero (o : StepOutcome) : andThen o (runSteps 0) = o := by
  cases o <;> rfl

/-- Settles O49: under `RESET` every turn is a wait; the turn after the release is BOOT. -/
theorem coreWaitsInResetThenBoots : Obligations.CoreWaitsInResetThenBoots := by
  intro s n hpin
  refine ⟨fun hm => runSteps_of_waiting s ?_ n, fun h => ?_⟩
  · rw [step_of_no_moves s hm, coreTurn_of_reset s hpin]
  · rw [runSteps_releaseReset_core 0 [] s hpin h, andThen_runSteps_zero]
    rfl

/-! BOOT and its claim (R158). -/

/-- The hold of the primary's entry claim, with the registers as BOOT has written them (R121). -/
def State.entryHold (s : State) : State :=
  { s.bootRegisters with seq.ret := .boot }.beginClaim .a

theorem entryHold_codesLegal (s : State) : CodesLegal s.entryHold :=
  (by decide : PState.waitSync1.code < 5#3 ∧ Owner.none.code ≠ 3#2 ∧ Owner.a.code ≠ 3#2 ∧ Phase.claimHold.code < 6#3)

theorem entryHold_holdElapsed (s : State) (d : Time) (hd : s.cfg.bbm ≤ d) (hw : d < 2 ^ s.cfg.clockWidth) :
    (s.entryHold.clockAdvance d).holdElapsed = true :=
  holdElapsed_beginClaim_clockAdvance .a { s.bootRegisters with seq.ret := .boot } d hd hw

/-- The entry claim of the primary runs to its finish: BOOT, the clock's advance to the end of the hold, the finish. -/
theorem runSteps_boot_primary (s : State) (d : Time) (hpin : s.env.resetPin = true) (h : ResetHolds s)
    (hown : s.cfg.own = .a) (hd : s.cfg.bbm ≤ d) (hw : d < 2 ^ s.cfg.clockWidth) :
    runSteps 4 { s with moves := [.releaseReset, .core, .clock d, .core] } =
      .next { (s.released []).entryHold.clockAdvance d with
        arb := (Arb.broken .a s.now).made, seq.phase := Phase.tickStart.code } := by
  have hfinish := runSteps_clock_core_of_claimHold (s.released [.clock d, .core]).entryHold d rfl
    (entryHold_codesLegal _) rfl (entryHold_holdElapsed _ d hd hw)
  rw [execClaimFinish_eq _ (owner_code_ne_reserved .a)] at hfinish
  rw [runSteps_releaseReset_core 2 _ s hpin h, execBoot_primary (s.released _) hown, andThen_next]
  exact hfinish

/-- The secondary's entry claim is a no-op, so that BOOT goes on to the first tick at once. -/
theorem runSteps_boot_secondary (s : State) (hpin : s.env.resetPin = true) (h : ResetHolds s) (hown : s.cfg.own = .b) :
    runSteps 2 { s with moves := [.releaseReset, .core] } =
      .next ((s.released []).bootRegisters.setPhase .tickStart) := by
  rw [runSteps_releaseReset_core 0 [] s hpin h, andThen_runSteps_zero]
  exact execBoot_secondary (s.released []) hown

/-- Settles O36: the table of R158 is read off the state at the end of each identity's run. The primary's hold started at the
sample of BOOT, so that its end is a distance from that sample. -/
theorem stateAfterBootAndItsClaim : Obligations.StateAfterBootAndItsClaim := by
  intro s t0 d hpin h ht0 hd hw
  subst ht0
  refine ⟨fun hown => ?_, fun hown => ?_⟩
  · have hrole : s.cfg.initialRole = .primaryActive := (initialRole_eq_primaryActive s.cfg).2 hown
    have helapsed := (holdElapsed_iff _).1 (entryHold_holdElapsed (s.released []) d hd hw)
    exact ⟨_, runSteps_boot_primary s d hpin h hown hd hw, hrole, rfl, rfl, rfl, rfl, rfl, rfl, rfl, rfl, rfl, rfl, rfl,
      helapsed⟩
  · have hrole : s.cfg.initialRole = .standbyPassive := by rw [initialRole_eq_ite, hown]; rfl
    exact ⟨_, runSteps_boot_secondary s hpin h hown, hrole, rfl, rfl, rfl, rfl, rfl, rfl, rfl, rfl, rfl, rfl, rfl, rfl⟩

end Sys2Proof.Machine
end
